-- ==== Sys2Proof/Word.lean ====
section
/-! DEFINITION. The word types of the CORE (00_scope.md R8, R10): every one is an unsigned bit vector. -/

namespace Sys2Proof

/-- A nibble, one of the four 4-bit fields `d1 d2 d3 d4` of an instruction word (R10). -/
abbrev Nibble := BitVec 4

/-- A byte: a general register, a timer, a memory byte, the immediate `nn` (R8, R11). -/
abbrev Byte := BitVec 8

/-- The 12-bit address immediate `nnn` (R91). -/
abbrev Addr := BitVec 12

/-- A 16-bit word: `I`, `pc`, a stack entry, an instruction word (R8, R90). -/
abbrev Word := BitVec 16

end Sys2Proof
end

