-- ==== Sys2Proof/Config.lean ====
section
/-! DEFINITION. The parameters of the build that the document leaves open (00_scope.md R9) and the free value. -/

namespace Sys2Proof

/-- The parameters of R9 that the machine's behaviour depends on. They are fixed for a build: State holds them, no
step writes them, and a statement about every state holds for every value of them (log 3, log 4). -/
structure Config where
  /-- `SKIP5_ON_EQUAL` (R146, D3): true, 5xy0 skips when the registers are equal; false, when they differ. -/
  skip5OnEqual : Bool
  /-- `GLYPH_TABLE` (R69, D4): the 80 bytes that reset writes to addresses 0..79. -/
  glyphTable : Vector Byte 80
  deriving DecidableEq, Repr

/-- The default `GLYPH_TABLE` of R69, rows 0..4 of digits 0..F.
PRESUMED, unsafe (log 4): only the first byte, 0xF0, is in the source. -/
def Config.defaultGlyphs : Vector Byte 80 :=
  #v[0xF0, 0x90, 0x90, 0x90, 0xF0,  0x20, 0x60, 0x20, 0x20, 0x70,
     0xF0, 0x10, 0xF0, 0x80, 0xF0,  0xF0, 0x10, 0xF0, 0x10, 0xF0,
     0x90, 0x90, 0xF0, 0x10, 0x10,  0xF0, 0x80, 0xF0, 0x10, 0xF0,
     0xF0, 0x80, 0xF0, 0x90, 0xF0,  0xF0, 0x10, 0x20, 0x40, 0x40,
     0xF0, 0x90, 0xF0, 0x90, 0xF0,  0xF0, 0x90, 0xF0, 0x10, 0xF0,
     0xF0, 0x90, 0xF0, 0x90, 0x90,  0xE0, 0x90, 0xE0, 0x90, 0xE0,
     0xF0, 0x80, 0x80, 0x80, 0xF0,  0xE0, 0x90, 0x90, 0x90, 0xE0,
     0xF0, 0x80, 0xF0, 0x80, 0xF0,  0xF0, 0x80, 0xF0, 0x80, 0x80]

/-- The default parameters of R9: 5xy0 skips when the registers differ (D3), and the font of R69 (D4).
DESIGN CHOICE and PRESUMED, unsafe (log 3, log 4): only `State.reset` names them. -/
def Config.default : Config where
  skip5OnEqual := false
  glyphTable := Config.defaultGlyphs

/-- The free value of the model: `rand_byte` of the k-th Cxnn (R176, R129, D7). It has no body, so nothing about a
draw can be proved (log 5). Safe for a claim about one run, unsafe for a claim that compares two runs. -/
opaque Config.randByte : Nat → Byte

end Sys2Proof
end

