-- ==== Sys2Proof/Syntax.lean ====
section
/-! DEFINITION. The instructions: one constructor per row of spec/opcode_table.json (30_encoding.md R94),
in the table's order, with the operand fields of R91. -/

namespace Sys2Proof

/-- The 35 instructions of R94. Every field is a bit vector of the field's own width, so that every term is a
legal instruction (R20, R93: each value of each field names a legal operand). -/
inductive Instr where
  /-- 0000, no-op (R140). -/
  | nop
  /-- 00E0, clear screen (R210). -/
  | cls
  /-- 00EE, return (R141). -/
  | ret
  /-- 1nnn, jump (R142). -/
  | jp (nnn : Addr)
  /-- 2nnn, call (R143). -/
  | call (nnn : Addr)
  /-- 3xnn, skip if `V[x] = nn` (R144). -/
  | seVB (x : Nibble) (nn : Byte)
  /-- 4xnn, skip if `V[x] ≠ nn` (R145). -/
  | sneVB (x : Nibble) (nn : Byte)
  /-- 5xy0, register compare skip, polarity `SKIP5_ON_EQUAL` (R146). -/
  | seVV (x y : Nibble)
  /-- 6xnn, load immediate (R160). -/
  | ldVB (x : Nibble) (nn : Byte)
  /-- 7xnn, add immediate (R161). -/
  | addVB (x : Nibble) (nn : Byte)
  /-- 8xy0, copy (R162). -/
  | ldVV (x y : Nibble)
  /-- 8xy1, bitwise OR (R163). -/
  | or (x y : Nibble)
  /-- 8xy2, bitwise AND (R164). -/
  | and (x y : Nibble)
  /-- 8xy3, bitwise XOR (R165). -/
  | xor (x y : Nibble)
  /-- 8xy4, add with carry (R166). -/
  | addVV (x y : Nibble)
  /-- 8xy5, subtract with borrow (R167). -/
  | sub (x y : Nibble)
  /-- 8x_6, shift right (R168). `y` is a don't-care (R92), kept so that no bit of the word is dropped. -/
  | shr (x y : Nibble)
  /-- 8xy7, reverse subtract (R169). -/
  | subn (x y : Nibble)
  /-- 8x_E, shift left (R170). `y` is a don't-care (R92), kept so that no bit of the word is dropped. -/
  | shl (x y : Nibble)
  /-- 9xy0, skip if `V[x] ≠ V[y]` (R147). -/
  | sneVV (x y : Nibble)
  /-- Annn, load index (R190). -/
  | ldI (nnn : Addr)
  /-- Bnnn, offset jump (R148). -/
  | jpV0 (nnn : Addr)
  /-- Cxnn, random (R176). -/
  | rnd (x : Nibble) (nn : Byte)
  /-- Dxyn, draw sprite (R211). -/
  | drw (x y n : Nibble)
  /-- Ex9E, skip if key down (R231). -/
  | skp (x : Nibble)
  /-- ExA1, skip if key up (R232). -/
  | sknp (x : Nibble)
  /-- Fx07, read delay timer (R233). -/
  | ldVDT (x : Nibble)
  /-- Fx0A, block for key (R234). -/
  | ldVK (x : Nibble)
  /-- Fx15, write delay timer (R235). -/
  | ldDTV (x : Nibble)
  /-- Fx18, write sound timer (R236). -/
  | ldSTV (x : Nibble)
  /-- Fx1E, add to index (R191). -/
  | addIV (x : Nibble)
  /-- Fx29, index to glyph (R192). -/
  | ldFV (x : Nibble)
  /-- Fx33, binary-coded decimal (R203). -/
  | ldBV (x : Nibble)
  /-- Fx55, store registers (R204). -/
  | ldMemV (x : Nibble)
  /-- Fx65, load registers (R205). -/
  | ldVMem (x : Nibble)
  deriving DecidableEq, Repr

end Sys2Proof
end

