-- ==== Sys2Proof/Machine/State.lean ====
section
/-! DEFINITION. The state of the CORE as plain data (10_state.md R20 to R36), the host's requests, and the state
after reset (10_state.md R44). -/

namespace Sys2Proof.Machine

open Sys2Proof

/-- The outcome of a transaction, the seven codes of 60_exceptions.md R250. -/
inductive Code where
  /-- 0: the transaction succeeded. -/
  | ok
  /-- 1: decode of a word outside R94 (R97). -/
  | unimplementedInstruction
  /-- 2: 2nnn with `sp = 16` (R143). -/
  | stackOverflow
  /-- 3: 00EE with `sp = 0` (R141). -/
  | stackUnderflow
  /-- 4: a fetch or an instruction's byte range past 4095 (R65). -/
  | outOfBoundsAccess
  /-- 5: Ex9E or ExA1 with `V[x] ≥ 16` (R230), or SET_KEY with an index ≥ 16 (R263). -/
  | keyIndexOutOfRange
  /-- 6: LOAD of more than 3584 bytes (R72). -/
  | capacityExceeded
  deriving DecidableEq, Repr

/-- The register `STATUS` (R36): the outcome of the most recent transaction. -/
structure Status where
  code : Code
  /-- For an error of an instruction step, `pc` at the start of that step; otherwise 0. -/
  pc : Word
  /-- For an error after a successful fetch, the fetched word; otherwise 0. -/
  word : Word
  deriving DecidableEq, Repr

/-- A transaction the host asks for (R40, R42). -/
inductive Txn where
  /-- `cmd = 0`, NONE: nothing is asked. -/
  | idle
  /-- RESET (R280). -/
  | reset
  /-- STEP_INSTR (R120). Its argument `rand_byte` is the free value `Config.randByte` (R129, log 5). -/
  | stepInstr
  /-- STEP_TIMERS (R257). -/
  | stepTimers
  /-- LOAD (R72). -/
  | load (bytes : List Byte)
  /-- SET_KEY (R262); the index is wider than the hardware's 4-bit port, so R263 applies to it (log 8). -/
  | setKey (index : Nat) (pressed : Bool)
  /-- READ_DISPLAY (R215). -/
  | readDisplay
  /-- READ_STATE (R43). -/
  | readState
  deriving DecidableEq, Repr

/-- Memory as the bytes that differ from their reset contents: (address, byte) pairs, addresses strictly rising and
no entry equal to what its address reads as unlisted (`Memory.wf`). -/
abbrev Memory := List Host.Cell

/-- The whole state: the spec's (R20 to R36, R60), the build's parameters (R9), and the model's two own fields. -/
structure State where
  /-- `V[0]`..`V[15]`, 8 bits each (R20); `V[15]` is VF (R22). -/
  V : Vector Byte 16
  /-- The index register (R24). -/
  I : Word
  /-- The program counter (R25): the address of the next instruction to fetch. -/
  pc : Word
  /-- The stack pointer, 0..16: the number of entries in use (R28). -/
  sp : Fin 17
  /-- The call stack, 16 entries of 16 bits (R28). -/
  stack : Vector Word 16
  /-- The delay timer (R30). -/
  DT : Byte
  /-- The sound timer (R30). -/
  ST : Byte
  /-- The display surface, 32 rows of 64 pixels: bit `px` of row `py` is `disp[px, py]` (R32, log 10). -/
  disp : Vector (BitVec 64) 32
  /-- The key latch, true = pressed (R34). -/
  keys : Vector Bool 16
  /-- Memory, 4096 bytes (R60). -/
  mem : Memory
  /-- The register `STATUS` (R36). -/
  status : Status
  /-- The build's parameters (R9); no transaction writes them (log 3, log 4). -/
  config : Config
  /-- The model's own: how many draws Cxnn has consumed; the next is `Config.randByte draws` (log 5). -/
  draws : Nat
  /-- The model's own: the transactions the host has asked for that are not yet performed, oldest first (R41, log 7). -/
  requests : List Txn
  deriving DecidableEq, Repr

/-- The reasons by which a CLAIM ends a run at an error (R128, D13): one per error kind of R250, with `STATUS.pc` and
`STATUS.word`. Only `Safety.checkedStep` raises them. `exec` and `step` raise none: the spec gives every error its
effect (R125) and the machine goes on, so they answer a next state (log 1). Ending a run is safe. -/
inductive Fault where
  /-- Raised by `Safety.checkedStep` alone, when a step reported code 1. Safe: the claim's run ends. -/
  | unimplementedInstruction (pc word : Word)
  /-- Raised by `Safety.checkedStep` alone, when a step reported code 2. Safe: the claim's run ends. -/
  | stackOverflow (pc word : Word)
  /-- Raised by `Safety.checkedStep` alone, when a step reported code 3. Safe: the claim's run ends. -/
  | stackUnderflow (pc word : Word)
  /-- Raised by `Safety.checkedStep` alone, when a step reported code 4. Safe: the claim's run ends. -/
  | outOfBoundsAccess (pc word : Word)
  /-- Raised by `Safety.checkedStep` alone, when a step reported code 5. Safe: the claim's run ends. -/
  | keyIndexOutOfRange (pc word : Word)
  /-- Raised by `Safety.checkedStep` alone, when a step reported code 6. Safe: the claim's run ends. -/
  | capacityExceeded (pc word : Word)
  deriving DecidableEq, Repr

/-- The reasons for which the model has no meaning for an instruction. -/
inductive Refusal where
  /-- An arm of `exec` that has no meaning yet, by its mnemonic. No arm is left so. Safe: the run ends. -/
  | notModelled (mnemonic : String)
  deriving DecidableEq, Repr

/-- The outcome every successful transaction writes: code 0, pc 0, word 0 (R36, R126). -/
def Status.success : Status := ⟨.ok, 0, 0⟩

/-- The state after RESET of a build with parameters `c` (R44, R280): memory holds nothing that differs from its
reset contents, which are the glyph table at 0..79 and 0 elsewhere. -/
def State.resetWith (c : Config) : State where
  V := Vector.replicate 16 0
  I := 0
  pc := 512
  sp := 0
  stack := Vector.replicate 16 0
  DT := 0
  ST := 0
  disp := Vector.replicate 32 0
  keys := Vector.replicate 16 false
  mem := []
  status := Status.success
  config := c
  draws := 0
  requests := []

/-- The state right after reset, and before the first transaction (R45), of the build with the default parameters
(R9). -/
def State.reset : State := State.resetWith Config.default

end Sys2Proof.Machine
end

