-- ==== Sys2Proof/Machine/Ops.lean ====
section
/-! DEFINITION. The named operations over memory, the registers, the stack and STATUS (00_scope.md R13), and the
one operation by which a step reports an error (40_step.md R125, 60_exceptions.md R253). The spec has no return from
an error (60_exceptions.md R254), so there is none here. -/

namespace Sys2Proof.Machine

open Sys2Proof

/-! Memory -/

/-- What an address that memory does not list reads as: its contents after reset (R44, R68), the glyph table at
0..79 and 0 elsewhere. -/
def initialByte (c : Config) (a : Nat) : Byte :=
  if h : a < 80 then c.glyphTable[a] else 0

/-- `mem[a]` (R13, R60). -/
def Memory.read (c : Config) : Memory → Nat → Byte
  | [], a => initialByte c a
  | (b, v) :: m, a => if a = b then v else Memory.read c m a

/-- List `v` at `a`, before the first entry of a higher address. -/
def Memory.insert (a : Nat) (v : Byte) : Memory → Memory
  | [] => [(a, v)]
  | (b, u) :: m => if a < b then (a, v) :: (b, u) :: m else (b, u) :: Memory.insert a v m

/-- The memory without any entry for `a`. -/
def Memory.erase (a : Nat) (m : Memory) : Memory := m.filter fun e => e.1 != a

/-- `mem[a] <- v` (R13). Every one of the 4096 bytes is writable (R70); there is no other address (R60). The
canonical form is kept: a byte equal to its reset contents is not listed. -/
def Memory.write (c : Config) (m : Memory) (a : Nat) (v : Byte) : Memory :=
  if a < 4096 then
    if v = initialByte c a then Memory.erase a m else Memory.insert a v (Memory.erase a m)
  else m

/-- Consecutive one-byte writes from `a` upward, in order (R64, R75). -/
def Memory.writeBytes (c : Config) (m : Memory) (a : Nat) : List Byte → Memory
  | [] => m
  | b :: bs => Memory.writeBytes c (Memory.write c m a b) (a + 1) bs

/-- The canonical form of memory: addresses strictly rising and below 4096, no entry equal to what its address reads
as unlisted. -/
abbrev Memory.wf (c : Config) (m : Memory) : Prop :=
  m.Pairwise (fun e f => e.1 < f.1) ∧ ∀ e ∈ m, e.1 < 4096 ∧ e.2 ≠ initialByte c e.1

/-- `MemRead(a, 1)` (R13). -/
def State.readByte (s : State) (a : Nat) : Byte := Memory.read s.config s.mem a

/-- Writes of consecutive bytes from `a` (R64). -/
def State.writeBytes (s : State) (a : Nat) (bs : List Byte) : State :=
  { s with mem := Memory.writeBytes s.config s.mem a bs }

/-- `n` bytes from `a` upward (R64). -/
def State.readBytes (s : State) (a n : Nat) : List Byte := (List.range n).map fun k => s.readByte (a + k)

/-! Registers -/

/-- `V[x]` (R12, R20). -/
def State.reg (s : State) (x : Nibble) : Byte := s.V[x.toNat]'(by omega)

/-- `V[x] <- v` (R12, R20). -/
def State.setReg (s : State) (x : Nibble) (v : Byte) : State :=
  { s with V := s.V.set x.toNat v (by omega) }

/-- `V[k] <- b` for each register `k` below the length of `bs`, with `bs`'s k-th byte; the others stay (R205). -/
def State.setRegs (s : State) (bs : List Byte) : State :=
  { s with V := Vector.ofFn fun k : Fin 16 => bs[k.val]?.getD s.V[k] }

/-- `V[0]`..`V[x]` inclusive, in order (R204). -/
def State.regsUpTo (s : State) (x : Nibble) : List Byte := s.V.toList.take (x.toNat + 1)

/-- The flag write `VF <- f`, always the last write of an instruction (R23). -/
def State.setFlag (s : State) (f : Byte) : State := s.setReg 0xF#4 f

/-- `I <- v` (R24). -/
def State.setI (s : State) (v : Word) : State := { s with I := v }

/-- `pc <- target` (R25). -/
def State.setPc (s : State) (target : Word) : State := { s with pc := target }

/-- The advance of `pc` by 2 that fetch makes before the instruction executes (R25, R121). -/
def State.advance (s : State) : State := s.setPc (s.pc + 2)

/-- A skip: `pc <- pc + 2` beyond the advance when the condition holds (R15, R26). -/
def State.skipIf (s : State) (cond : Bool) : State := if cond then s.advance.advance else s.advance

/-- `DT <- v` (R31). -/
def State.setDT (s : State) (v : Byte) : State := { s with DT := v }

/-- `ST <- v` (R31). -/
def State.setST (s : State) (v : Byte) : State := { s with ST := v }

/-- The display becomes `d` (R33). -/
def State.setDisp (s : State) (d : Vector (BitVec 64) 32) : State := { s with disp := d }

/-- `key[k] <- pressed` (R262). -/
def State.setKey (s : State) (k : Fin 16) (pressed : Bool) : State := { s with keys := s.keys.set k pressed }

/-- One draw is consumed (R176). -/
def State.consumeDraw (s : State) : State := { s with draws := s.draws + 1 }

/-- `STATUS <- st` (R36). -/
def State.setStatus (s : State) (st : Status) : State := { s with status := st }

/-! The call stack -/

/-- `Push(v)` (R29): none when `sp = 16`. -/
def State.push (s : State) (v : Word) : Option State :=
  if h : s.sp.val < 16 then
    some { s with stack := s.stack.set s.sp.val v, sp := ⟨s.sp.val + 1, by omega⟩ }
  else none

/-- `Pop()` (R29): the popped value, and the state with `sp` one lower; none when `sp = 0`. The entry is not
cleared. -/
def State.pop (s : State) : Option (Word × State) :=
  if h : 0 < s.sp.val then
    some (s.stack[s.sp.val - 1]'(by omega), { s with sp := ⟨s.sp.val - 1, by omega⟩ })
  else none

/-! The two ends of a step -/

/-- COMMIT (R120, R126): the step's updates stand and `STATUS <- (OK, 0, 0)`. -/
def State.commit (s : State) : Host.Outcome State Fault Refusal := .next (s.setStatus Status.success)

/-- `raise Error(code)` (R13, R125, R253): of the state at the start of the step nothing changes but STATUS, which
gets the code, `pc` as it was at the start of the step, and the fetched word (0 where nothing was fetched). -/
def State.raise (s : State) (code : Code) (word : Word) : Host.Outcome State Fault Refusal :=
  .next (s.setStatus ⟨code, s.pc, word⟩)

end Sys2Proof.Machine
end

