-- ==== Sys2Proof/Machine/Operands.lean ====
section
/-! DEFINITION. The operand forms: zero-extended immediates (30_encoding.md R93), the one data addressing mode `I`
plus an offset (43_index_memory.md R206), the range check (20_memory.md R65), the key index (45_timers_keys.md R230)
and the sprite's pixels (44_display.md R211). -/

namespace Sys2Proof.Machine

open Sys2Proof

/-- `zext_16(nnn)` (R11, R93). -/
def zextAddr (nnn : Addr) : Word := nnn.setWidth 16

/-- `zext_16(v)` of a byte (R11). -/
def zextByte (v : Byte) : Word := v.setWidth 16

/-- The address of the byte at offset `k` from `I`, on unbounded naturals: it never wraps (R65, R206). -/
def State.dataAddr (s : State) (k : Nat) : Nat := s.I.toNat + k

/-- `CheckRange(a, k)` passes, `k ≥ 1` bytes from `a` (R65). -/
def rangeOk (a k : Nat) : Bool := a + k ≤ 4096

/-- `KeyIndex(v)` (R230): the key `v` names, or none when `v ≥ 16`. -/
def keyIndex (v : Byte) : Option (Fin 16) := if h : v.toNat < 16 then some ⟨v.toNat, h⟩ else none

/-- The least pressed key (R234: "scan keys in index order; on first pressed key"). -/
def State.firstKey (s : State) : Option (Fin 16) := (List.finRange 16).find? fun k => s.keys[k]

/-- `disp[px, py]` (R32). -/
def State.pixel (s : State) (px : Fin 64) (py : Fin 32) : Bool := s.disp[py].getLsbD px.val

/-- The column of bit `b` of a sprite drawn from column `ox`, wrapped (R211, R212). -/
def wrapX (ox b : Nat) : Fin 64 := ⟨(ox + b) % 64, Nat.mod_lt _ (by decide)⟩

/-- The line of row `r` of a sprite drawn from line `oy`, wrapped (R211, R212). -/
def wrapY (oy r : Nat) : Fin 32 := ⟨(oy + r) % 32, Nat.mod_lt _ (by decide)⟩

/-- The three decimal digits of a byte, hundreds first, by integer division (R203). -/
def decimalDigits (v : Byte) : List Byte :=
  [BitVec.ofNat 8 (v.toNat / 100), BitVec.ofNat 8 (v.toNat / 10 % 10), BitVec.ofNat 8 (v.toNat % 10)]

end Sys2Proof.Machine
end

