-- ==== Sys2Proof/Machine/Flags.lean ====
section
/-! DEFINITION. Every flag the spec computes into VF (42_alu.md R171, 44_display.md R213) with the results they go
with (42_alu.md R172). -/

namespace Sys2Proof.Machine

open Sys2Proof

/-- A flag as VF holds it: 1 or 0. -/
def flagByte (b : Bool) : Byte := if b then 1 else 0

/-- The carry of 8xy4: 1 exactly when `a + b ≥ 256` (R171). -/
def carryFlag (a b : Byte) : Byte := flagByte (256 ≤ a.toNat + b.toNat)

/-- NOT borrow of `a − b`: 0 exactly when `a < b` (R171). -/
def noBorrowFlag (a b : Byte) : Byte := flagByte (!(a.toNat < b.toNat))

/-- The bit a right shift shifts out, bit 0 (R168, R171). -/
def shiftRightFlag (a : Byte) : Byte := flagByte (a.getLsbD 0)

/-- The bit a left shift shifts out, bit 7 (R170, R171). -/
def shiftLeftFlag (a : Byte) : Byte := flagByte (a.getLsbD 7)

/-- The write-back of the ALU operations with a flag: `V[x] <- r`, and then `VF <- f`, last (R172, R23). -/
def State.setRegFlag (s : State) (x : Nibble) (r f : Byte) : State := (s.setReg x r).setFlag f

/-- What a draw carries: the display, and whether any pixel has gone from true to false. -/
structure Canvas where
  disp : Vector (BitVec 64) 32
  collision : Bool
  deriving DecidableEq, Repr

/-- The XOR of one set sprite bit onto pixel `(px, py)`: the pixel is inverted, and a pixel that was set is a
collision (R211, R213). -/
def toggle (c : Canvas) (px : Fin 64) (py : Fin 32) : Canvas where
  disp := c.disp.set py (c.disp[py] ^^^ (1#64 <<< px.val))
  collision := c.collision || c.disp[py].getLsbD px.val

end Sys2Proof.Machine
end

