-- ==== Sys2Proof/Machine/Alu.lean ====
section
/-! DEFINITION. Register arithmetic and logic (42_alu.md R160 to R172, R176): none raises an error, `pc` becomes
`a + 2`. -/

namespace Sys2Proof.Machine

open Sys2Proof

/-- 6xnn, load immediate (R160). -/
def execLdVB (x : Nibble) (nn : Byte) (s : State) : Host.Outcome State Fault Refusal :=
  (s.setReg x nn).advance.commit

/-- 7xnn, add immediate, modulo 256, VF not written (R161). -/
def execAddVB (x : Nibble) (nn : Byte) (s : State) : Host.Outcome State Fault Refusal :=
  (s.setReg x (s.reg x + nn)).advance.commit

/-- 8xy0, copy (R162). -/
def execLdVV (x y : Nibble) (s : State) : Host.Outcome State Fault Refusal :=
  (s.setReg x (s.reg y)).advance.commit

/-- 8xy1, bitwise OR, VF not cleared (R163). -/
def execOr (x y : Nibble) (s : State) : Host.Outcome State Fault Refusal :=
  (s.setReg x (s.reg x ||| s.reg y)).advance.commit

/-- 8xy2, bitwise AND, VF not cleared (R164). -/
def execAnd (x y : Nibble) (s : State) : Host.Outcome State Fault Refusal :=
  (s.setReg x (s.reg x &&& s.reg y)).advance.commit

/-- 8xy3, bitwise XOR, VF not cleared (R165). -/
def execXor (x y : Nibble) (s : State) : Host.Outcome State Fault Refusal :=
  (s.setReg x (s.reg x ^^^ s.reg y)).advance.commit

/-- 8xy4, add with carry (R166). -/
def execAddVV (x y : Nibble) (s : State) : Host.Outcome State Fault Refusal :=
  (s.setRegFlag x (s.reg x + s.reg y) (carryFlag (s.reg x) (s.reg y))).advance.commit

/-- 8xy5, subtract with borrow (R167). -/
def execSub (x y : Nibble) (s : State) : Host.Outcome State Fault Refusal :=
  (s.setRegFlag x (s.reg x - s.reg y) (noBorrowFlag (s.reg x) (s.reg y))).advance.commit

/-- 8x_6, shift right; `y` is ignored (R168, R92). -/
def execShr (x _y : Nibble) (s : State) : Host.Outcome State Fault Refusal :=
  (s.setRegFlag x (s.reg x >>> 1) (shiftRightFlag (s.reg x))).advance.commit

/-- 8xy7, reverse subtract (R169). -/
def execSubn (x y : Nibble) (s : State) : Host.Outcome State Fault Refusal :=
  (s.setRegFlag x (s.reg y - s.reg x) (noBorrowFlag (s.reg y) (s.reg x))).advance.commit

/-- 8x_E, shift left; `y` is ignored (R170, R92). -/
def execShl (x _y : Nibble) (s : State) : Host.Outcome State Fault Refusal :=
  (s.setRegFlag x (s.reg x <<< 1) (shiftLeftFlag (s.reg x))).advance.commit

/-- Cxnn with the draw `rand`: `V[x] <- rand & nn` (R176). -/
def rndWith (rand : Byte) (x : Nibble) (nn : Byte) (s : State) : State := s.setReg x (rand &&& nn)

/-- Cxnn, random: the step's draw is the free value `Config.randByte s.draws`, and exactly one draw is consumed
(R176, R129, D7, log 5). -/
def execRnd (x : Nibble) (nn : Byte) (s : State) : Host.Outcome State Fault Refusal :=
  (rndWith (Config.randByte s.draws) x nn s).consumeDraw.advance.commit

end Sys2Proof.Machine
end

