-- ==== Sys2Proof/Decode.lean ====
section
/-! DEFINITION. The decoder and the encoder (30_encoding.md R91 to R97). Decoding is a total, stateless function of
the word (R95). -/

namespace Sys2Proof

/-- `d1 = w[15:12]` (R91). -/
def d1 (w : Word) : Nibble := w.extractLsb' 12 4

/-- `d2 = w[11:8]`, the operand `x` (R91). -/
def d2 (w : Word) : Nibble := w.extractLsb' 8 4

/-- `d3 = w[7:4]`, the operand `y` (R91). -/
def d3 (w : Word) : Nibble := w.extractLsb' 4 4

/-- `d4 = w[3:0]`, the operand `n` (R91). -/
def d4 (w : Word) : Nibble := w.extractLsb' 0 4

/-- `nn = w[7:0]` (R91). -/
def lowByte (w : Word) : Byte := w.extractLsb' 0 8

/-- `nnn = w[11:0]` (R91). -/
def lowAddr (w : Word) : Addr := w.extractLsb' 0 12

/-- The words of leading nibble 0: 0000, 00E0 and 00EE alone are instructions (R94 rows 1 to 3, R97). -/
def decode0 (w : Word) : Option Instr :=
  if w = 0x0000#16 then some .nop
  else if w = 0x00E0#16 then some .cls
  else if w = 0x00EE#16 then some .ret
  else none

/-- The words of leading nibble 8, by `d4` (R94 rows 11 to 19). -/
def decode8 (x y k : Nibble) : Option Instr :=
  match k with
  | 0x0#4 => some (.ldVV x y)
  | 0x1#4 => some (.or x y)
  | 0x2#4 => some (.and x y)
  | 0x3#4 => some (.xor x y)
  | 0x4#4 => some (.addVV x y)
  | 0x5#4 => some (.sub x y)
  | 0x6#4 => some (.shr x y)
  | 0x7#4 => some (.subn x y)
  | 0xE#4 => some (.shl x y)
  | _ => none

/-- The words of leading nibble E, by the low byte (R94 rows 25, 26). -/
def decodeE (x : Nibble) (k : Byte) : Option Instr :=
  match k with
  | 0x9E#8 => some (.skp x)
  | 0xA1#8 => some (.sknp x)
  | _ => none

/-- The words of leading nibble F, by the low byte (R94 rows 27 to 35). -/
def decodeF (x : Nibble) (k : Byte) : Option Instr :=
  match k with
  | 0x07#8 => some (.ldVDT x)
  | 0x0A#8 => some (.ldVK x)
  | 0x15#8 => some (.ldDTV x)
  | 0x18#8 => some (.ldSTV x)
  | 0x1E#8 => some (.addIV x)
  | 0x29#8 => some (.ldFV x)
  | 0x33#8 => some (.ldBV x)
  | 0x55#8 => some (.ldMemV x)
  | 0x65#8 => some (.ldVMem x)
  | _ => none

/-- The decoder (R95, R122): the instruction the word encodes with its fields, or none for an illegal word (R96). -/
def decodeWord (w : Word) : Option Instr :=
  match d1 w with
  | 0x0#4 => decode0 w
  | 0x1#4 => some (.jp (lowAddr w))
  | 0x2#4 => some (.call (lowAddr w))
  | 0x3#4 => some (.seVB (d2 w) (lowByte w))
  | 0x4#4 => some (.sneVB (d2 w) (lowByte w))
  | 0x5#4 => if d4 w = 0x0#4 then some (.seVV (d2 w) (d3 w)) else none
  | 0x6#4 => some (.ldVB (d2 w) (lowByte w))
  | 0x7#4 => some (.addVB (d2 w) (lowByte w))
  | 0x8#4 => decode8 (d2 w) (d3 w) (d4 w)
  | 0x9#4 => if d4 w = 0x0#4 then some (.sneVV (d2 w) (d3 w)) else none
  | 0xA#4 => some (.ldI (lowAddr w))
  | 0xB#4 => some (.jpV0 (lowAddr w))
  | 0xC#4 => some (.rnd (d2 w) (lowByte w))
  | 0xD#4 => some (.drw (d2 w) (d3 w) (d4 w))
  | 0xE#4 => decodeE (d2 w) (lowByte w)
  | 0xF#4 => decodeF (d2 w) (lowByte w)
  | _ => none

/-- Why a run of bytes is no instruction. -/
inductive DecodeError where
  /-- Fewer than two bytes are left (an instruction is always two bytes, R90). -/
  | tooShort
  /-- The word matches no row of R94 (R96, R97). -/
  | unimplementedInstruction (w : Word)
  deriving DecidableEq, Repr

/-- The word two bytes make: the first byte is the high-order one (R62, R121). -/
def wordOfBytes (hi lo : Byte) : Word := hi ++ lo

/-- The first instruction of a run of bytes, with the bytes after it; total, rejecting by name (R90, R95, R96). -/
def decode : List Byte → Except DecodeError (Instr × List Byte)
  | hi :: lo :: rest =>
    match decodeWord (wordOfBytes hi lo) with
    | some i => .ok (i, rest)
    | none => .error (.unimplementedInstruction (wordOfBytes hi lo))
  | _ => .error .tooShort

/-- The encoder: the word of an instruction, by the formats of R92 and the matches of R94. -/
def encode : Instr → Word
  | .nop => 0x0000#16
  | .cls => 0x00E0#16
  | .ret => 0x00EE#16
  | .jp nnn => 0x1#4 ++ nnn
  | .call nnn => 0x2#4 ++ nnn
  | .seVB x nn => 0x3#4 ++ x ++ nn
  | .sneVB x nn => 0x4#4 ++ x ++ nn
  | .seVV x y => 0x5#4 ++ x ++ y ++ 0x0#4
  | .ldVB x nn => 0x6#4 ++ x ++ nn
  | .addVB x nn => 0x7#4 ++ x ++ nn
  | .ldVV x y => 0x8#4 ++ x ++ y ++ 0x0#4
  | .or x y => 0x8#4 ++ x ++ y ++ 0x1#4
  | .and x y => 0x8#4 ++ x ++ y ++ 0x2#4
  | .xor x y => 0x8#4 ++ x ++ y ++ 0x3#4
  | .addVV x y => 0x8#4 ++ x ++ y ++ 0x4#4
  | .sub x y => 0x8#4 ++ x ++ y ++ 0x5#4
  | .shr x y => 0x8#4 ++ x ++ y ++ 0x6#4
  | .subn x y => 0x8#4 ++ x ++ y ++ 0x7#4
  | .shl x y => 0x8#4 ++ x ++ y ++ 0xE#4
  | .sneVV x y => 0x9#4 ++ x ++ y ++ 0x0#4
  | .ldI nnn => 0xA#4 ++ nnn
  | .jpV0 nnn => 0xB#4 ++ nnn
  | .rnd x nn => 0xC#4 ++ x ++ nn
  | .drw x y n => 0xD#4 ++ x ++ y ++ n
  | .skp x => 0xE#4 ++ x ++ 0x9E#8
  | .sknp x => 0xE#4 ++ x ++ 0xA1#8
  | .ldVDT x => 0xF#4 ++ x ++ 0x07#8
  | .ldVK x => 0xF#4 ++ x ++ 0x0A#8
  | .ldDTV x => 0xF#4 ++ x ++ 0x15#8
  | .ldSTV x => 0xF#4 ++ x ++ 0x18#8
  | .addIV x => 0xF#4 ++ x ++ 0x1E#8
  | .ldFV x => 0xF#4 ++ x ++ 0x29#8
  | .ldBV x => 0xF#4 ++ x ++ 0x33#8
  | .ldMemV x => 0xF#4 ++ x ++ 0x55#8
  | .ldVMem x => 0xF#4 ++ x ++ 0x65#8

/-- The first byte of a word in memory, the high-order one (R62). -/
def highByte (w : Word) : Byte := w.extractLsb' 8 8

/-- The bytes of an instruction as memory holds them, first byte first (R62, R90). -/
def encodeBytes (i : Instr) : List Byte := [highByte (encode i), lowByte (encode i)]

/-- The instruction the decoder reads from a word of the opcode table: `w` has its bits numbered from the least
significant bit of the one 16-bit word, bits from `nbits` up are 0, and the bytes lie first high then low (R62). -/
def decodeTableWord (nbits w : Nat) : Option Instr :=
  let word : Word := BitVec.ofNat 16 (w % 2 ^ nbits)
  match decode [highByte word, lowByte word] with
  | .ok (i, _) => some i
  | .error _ => none

end Sys2Proof
end

