-- ==== Sys2Proof/Machine/Control.lean ====
section
/-! DEFINITION. Control flow (41_control_flow.md R140 to R148). A meaning starts from the state at the start of the
step, so `s.pc` is the instruction's own address `a`, and `s.pc + 2` what fetch has advanced it to (40_step.md R123). -/

namespace Sys2Proof.Machine

open Sys2Proof

/-- 0000, no-op (R140). -/
def execNop (s : State) : Host.Outcome State Fault Refusal := s.advance.commit

/-- 00EE, return: `pc <- Pop()`, StackUnderflow when `sp = 0` (R141). -/
def execRet (s : State) : Host.Outcome State Fault Refusal :=
  match s.pop with
  | some (target, s') => (s'.setPc target).commit
  | none => s.raise .stackUnderflow (encode .ret)

/-- 1nnn, jump: `pc <- zext_16(nnn)` (R142). -/
def execJp (nnn : Addr) (s : State) : Host.Outcome State Fault Refusal := (s.setPc (zextAddr nnn)).commit

/-- 2nnn, call: `Push(a + 2)`, then `pc <- zext_16(nnn)`; StackOverflow when `sp = 16` (R143). -/
def execCall (nnn : Addr) (s : State) : Host.Outcome State Fault Refusal :=
  match s.push (s.pc + 2) with
  | some s' => (s'.setPc (zextAddr nnn)).commit
  | none => s.raise .stackOverflow (encode (.call nnn))

/-- 3xnn, skip if `V[x] = nn` (R144). -/
def execSeVB (x : Nibble) (nn : Byte) (s : State) : Host.Outcome State Fault Refusal :=
  (s.skipIf (s.reg x == nn)).commit

/-- 4xnn, skip if `V[x] ≠ nn` (R145). -/
def execSneVB (x : Nibble) (nn : Byte) (s : State) : Host.Outcome State Fault Refusal :=
  (s.skipIf (s.reg x != nn)).commit

/-- 5xy0, register compare skip: on equal registers when `SKIP5_ON_EQUAL`, else on different ones (R146, D3, C1). -/
def execSeVV (x y : Nibble) (s : State) : Host.Outcome State Fault Refusal :=
  (s.skipIf (if s.config.skip5OnEqual then s.reg x == s.reg y else s.reg x != s.reg y)).commit

/-- 9xy0, skip if `V[x] ≠ V[y]` (R147). -/
def execSneVV (x y : Nibble) (s : State) : Host.Outcome State Fault Refusal :=
  (s.skipIf (s.reg x != s.reg y)).commit

/-- Bnnn, offset jump: `pc <- V[0] + nnn`, not masked to 12 bits (R148). -/
def execJpV0 (nnn : Addr) (s : State) : Host.Outcome State Fault Refusal :=
  (s.setPc (zextByte (s.reg 0) + zextAddr nnn)).commit

end Sys2Proof.Machine
end

