-- ==== Sys2Proof/Machine/Display.lean ====
section
/-! DEFINITION. The display instructions (44_display.md R210 to R214). -/

namespace Sys2Proof.Machine

open Sys2Proof

/-- 00E0, clear screen: every pixel false, VF not written (R210). -/
def execCls (s : State) : Host.Outcome State Fault Refusal := (s.setDisp (Vector.replicate 32 0)).advance.commit

/-- Bit `b` of the sprite row `row` at row `r`, `b = 0` the most significant: a set bit is XORed onto its pixel, a
clear bit leaves it (R211, R213). -/
def drawBit (ox oy r : Nat) (row : Byte) (c : Canvas) (b : Nat) : Canvas :=
  if row.getLsbD (7 - b) then toggle c (wrapX ox b) (wrapY oy r) else c

/-- One row of a sprite, its 8 columns in order (R211). -/
def drawRow (ox oy r : Nat) (row : Byte) (c : Canvas) : Canvas :=
  (List.range 8).foldl (drawBit ox oy r row) c

/-- The rows of a sprite from row `r` on, in order (R211). -/
def drawRows (ox oy : Nat) : Nat → List Byte → Canvas → Canvas
  | _, [], c => c
  | r, row :: rows, c => drawRows ox oy (r + 1) rows (drawRow ox oy r row c)

/-- The sprite of a Dxyn: its `n` bytes from `I` (R211). -/
def State.sprite (s : State) (n : Nibble) : List Byte := s.readBytes (s.dataAddr 0) n.toNat

/-- The display after the sprite is drawn at `(vx mod 64, vy mod 32)`, and whether it collided (R211). -/
def State.drawn (s : State) (x y n : Nibble) : Canvas :=
  drawRows ((s.reg x).toNat % 64) ((s.reg y).toNat % 32) 0 (s.sprite n) ⟨s.disp, false⟩

/-- Dxyn, draw sprite: VF is the collision, written last; `n = 0` draws nothing, checks no bound and writes VF 0
(R211 to R214, D9). -/
def execDrw (x y n : Nibble) (s : State) : Host.Outcome State Fault Refusal :=
  if n = 0 || rangeOk (s.dataAddr 0) n.toNat then
    ((s.setDisp (s.drawn x y n).disp).setFlag (flagByte (s.drawn x y n).collision)).advance.commit
  else s.raise .outOfBoundsAccess (encode (.drw x y n))

end Sys2Proof.Machine
end

