-- ==== Sys2Proof/Machine/IndexMemory.lean ====
section
/-! DEFINITION. Index register and memory transfer (43_index_memory.md R190 to R205). A range is checked whole before
any byte moves (20_memory.md R66); `I` is not changed by an access (43_index_memory.md R206). -/

namespace Sys2Proof.Machine

open Sys2Proof

/-- Annn, load index (R190). -/
def execLdI (nnn : Addr) (s : State) : Host.Outcome State Fault Refusal := (s.setI (zextAddr nnn)).advance.commit

/-- Fx1E, add to index, modulo 65536, no flag, single addition (R191, C2, D11). -/
def execAddIV (x : Nibble) (s : State) : Host.Outcome State Fault Refusal :=
  (s.setI (s.I + zextByte (s.reg x))).advance.commit

/-- Fx29, index to glyph: `I <- vx × 5`, unmasked (R192, D25). -/
def execLdFV (x : Nibble) (s : State) : Host.Outcome State Fault Refusal :=
  (s.setI (BitVec.ofNat 16 ((s.reg x).toNat * 5))).advance.commit

/-- Fx33, binary-coded decimal: hundreds, tens and ones at `I`, `I + 1`, `I + 2` (R203). -/
def execLdBV (x : Nibble) (s : State) : Host.Outcome State Fault Refusal :=
  if rangeOk (s.dataAddr 0) 3 then (s.writeBytes (s.dataAddr 0) (decimalDigits (s.reg x))).advance.commit
  else s.raise .outOfBoundsAccess (encode (.ldBV x))

/-- Fx55, store registers: `V[0]`..`V[x]` inclusive to `I`.. (R204). -/
def execLdMemV (x : Nibble) (s : State) : Host.Outcome State Fault Refusal :=
  if rangeOk (s.dataAddr 0) (x.toNat + 1) then (s.writeBytes (s.dataAddr 0) (s.regsUpTo x)).advance.commit
  else s.raise .outOfBoundsAccess (encode (.ldMemV x))

/-- Fx65, load registers: `V[0]`..`V[x]` inclusive from `I`.. (R205). -/
def execLdVMem (x : Nibble) (s : State) : Host.Outcome State Fault Refusal :=
  if rangeOk (s.dataAddr 0) (x.toNat + 1) then
    (s.setRegs (s.readBytes (s.dataAddr 0) (x.toNat + 1))).advance.commit
  else s.raise .outOfBoundsAccess (encode (.ldVMem x))

end Sys2Proof.Machine
end

