-- ==== Sys2Proof/Machine/KeysTimers.lean ====
section
/-! DEFINITION. Key and timer instructions (45_timers_keys.md R230 to R236). -/

namespace Sys2Proof.Machine

open Sys2Proof

/-- Ex9E, skip if key down; KeyIndexOutOfRange when `V[x] ≥ 16` (R231, R230). -/
def execSkp (x : Nibble) (s : State) : Host.Outcome State Fault Refusal :=
  match keyIndex (s.reg x) with
  | some k => (s.skipIf s.keys[k]).commit
  | none => s.raise .keyIndexOutOfRange (encode (.skp x))

/-- ExA1, skip if key up; KeyIndexOutOfRange when `V[x] ≥ 16` (R232, R230). -/
def execSknp (x : Nibble) (s : State) : Host.Outcome State Fault Refusal :=
  match keyIndex (s.reg x) with
  | some k => (s.skipIf (!s.keys[k])).commit
  | none => s.raise .keyIndexOutOfRange (encode (.sknp x))

/-- Fx07, read delay timer (R233). -/
def execLdVDT (x : Nibble) (s : State) : Host.Outcome State Fault Refusal := (s.setReg x s.DT).advance.commit

/-- Fx0A, block for key: the least pressed key, or `pc` stays at this instruction; both report OK (R234, R126). -/
def execLdVK (x : Nibble) (s : State) : Host.Outcome State Fault Refusal :=
  match s.firstKey with
  | some k => (s.setReg x (BitVec.ofNat 8 k.val)).advance.commit
  | none => s.commit

/-- Fx15, write delay timer (R235). -/
def execLdDTV (x : Nibble) (s : State) : Host.Outcome State Fault Refusal := (s.setDT (s.reg x)).advance.commit

/-- Fx18, write sound timer (R236). -/
def execLdSTV (x : Nibble) (s : State) : Host.Outcome State Fault Refusal := (s.setST (s.reg x)).advance.commit

end Sys2Proof.Machine
end

