-- ==== Sys2Proof/Machine/Fetch.lean ====
section
/-! DEFINITION. Fetching an instruction's bytes (40_step.md R121) and placing a word where the next fetch reads it. -/

namespace Sys2Proof.Machine

open Sys2Proof

/-- FETCH (R121): the big-endian word at `pc`, or none when `pc + 1 > 4095`; `pc + 1` never wraps (D8). -/
def State.fetch (s : State) : Option Word :=
  if rangeOk s.pc.toNat 2 then some (wordOfBytes (s.readByte s.pc.toNat) (s.readByte (s.pc.toNat + 1))) else none

/-- The state with the word `w` where the next STEP_INSTR fetches it, and no request of the host before that step. A
`pc` from which no fetch succeeds is set to 512, the entry point (R282) (log 6). -/
def State.placeWord (s : State) (w : Word) : State :=
  let t := if rangeOk s.pc.toNat 2 then s else s.setPc 512
  { t.writeBytes t.pc.toNat [highByte w, lowByte w] with requests := [] }

end Sys2Proof.Machine
end

