-- ==== Sys2Proof/WellFormed.lean ====
section
/-! DEFINITION. What is well formed: an instruction word (the opcode map of 30_encoding.md R94), a program image
(20_memory.md R71) and the build's parameters (20_memory.md R69). A term of `Instr` needs no check of its own, because
each of its fields has exactly the width of R91 and every value of a field is legal (R20, R93). -/

namespace Sys2Proof

/-- One row of the opcode map R94: a word matches it when `(w & mask) = match`. -/
structure OpRow where
  mnemonic : String
  pattern : Word
  mask : Word
  deriving DecidableEq, Repr

/-- Rows 1 to 20 of R94. -/
def opRowsLow : List OpRow := [
  ⟨"NOP", 0x0000, 0xFFFF⟩, ⟨"CLS", 0x00E0, 0xFFFF⟩, ⟨"RET", 0x00EE, 0xFFFF⟩,
  ⟨"JP", 0x1000, 0xF000⟩, ⟨"CALL", 0x2000, 0xF000⟩,
  ⟨"SE_VB", 0x3000, 0xF000⟩, ⟨"SNE_VB", 0x4000, 0xF000⟩, ⟨"SE_VV", 0x5000, 0xF00F⟩,
  ⟨"LD_VB", 0x6000, 0xF000⟩, ⟨"ADD_VB", 0x7000, 0xF000⟩,
  ⟨"LD_VV", 0x8000, 0xF00F⟩, ⟨"OR", 0x8001, 0xF00F⟩, ⟨"AND", 0x8002, 0xF00F⟩, ⟨"XOR", 0x8003, 0xF00F⟩,
  ⟨"ADD_VV", 0x8004, 0xF00F⟩, ⟨"SUB", 0x8005, 0xF00F⟩, ⟨"SHR", 0x8006, 0xF00F⟩, ⟨"SUBN", 0x8007, 0xF00F⟩,
  ⟨"SHL", 0x800E, 0xF00F⟩, ⟨"SNE_VV", 0x9000, 0xF00F⟩]

/-- Rows 21 to 35 of R94. -/
def opRowsHigh : List OpRow := [
  ⟨"LD_I", 0xA000, 0xF000⟩, ⟨"JP_V0", 0xB000, 0xF000⟩, ⟨"RND", 0xC000, 0xF000⟩, ⟨"DRW", 0xD000, 0xF000⟩,
  ⟨"SKP", 0xE09E, 0xF0FF⟩, ⟨"SKNP", 0xE0A1, 0xF0FF⟩,
  ⟨"LD_V_DT", 0xF007, 0xF0FF⟩, ⟨"LD_V_K", 0xF00A, 0xF0FF⟩, ⟨"LD_DT_V", 0xF015, 0xF0FF⟩,
  ⟨"LD_ST_V", 0xF018, 0xF0FF⟩, ⟨"ADD_I_V", 0xF01E, 0xF0FF⟩, ⟨"LD_F_V", 0xF029, 0xF0FF⟩,
  ⟨"LD_B_V", 0xF033, 0xF0FF⟩, ⟨"LD_MEM_V", 0xF055, 0xF0FF⟩, ⟨"LD_V_MEM", 0xF065, 0xF0FF⟩]

/-- The whole opcode map (R94). -/
def opRows : List OpRow := opRowsLow ++ opRowsHigh

/-- `w` matches the row: `(w & mask) = match` (R94). -/
def OpRow.matches (r : OpRow) (w : Word) : Bool := w &&& r.mask == r.pattern

/-- A word is legal when it matches a row of R94; every other word is illegal (R96). -/
def legalWord (w : Word) : Bool := opRows.any fun r => r.matches w

/-- The row an instruction belongs to, by the table's mnemonic (R99). -/
def Instr.mnemonic : Instr → String
  | .nop => "NOP" | .cls => "CLS" | .ret => "RET" | .jp _ => "JP" | .call _ => "CALL"
  | .seVB _ _ => "SE_VB" | .sneVB _ _ => "SNE_VB" | .seVV _ _ => "SE_VV"
  | .ldVB _ _ => "LD_VB" | .addVB _ _ => "ADD_VB"
  | .ldVV _ _ => "LD_VV" | .or _ _ => "OR" | .and _ _ => "AND" | .xor _ _ => "XOR"
  | .addVV _ _ => "ADD_VV" | .sub _ _ => "SUB" | .shr _ _ => "SHR" | .subn _ _ => "SUBN" | .shl _ _ => "SHL"
  | .sneVV _ _ => "SNE_VV" | .ldI _ => "LD_I" | .jpV0 _ => "JP_V0" | .rnd _ _ => "RND" | .drw _ _ _ => "DRW"
  | .skp _ => "SKP" | .sknp _ => "SKNP" | .ldVDT _ => "LD_V_DT" | .ldVK _ => "LD_V_K" | .ldDTV _ => "LD_DT_V"
  | .ldSTV _ => "LD_ST_V" | .addIV _ => "ADD_I_V" | .ldFV _ => "LD_F_V" | .ldBV _ => "LD_B_V"
  | .ldMemV _ => "LD_MEM_V" | .ldVMem _ => "LD_V_MEM"

/-- The largest loadable image is 3584 bytes (R71, R72); any length up to it is accepted, odd lengths and 0 too. -/
def imageFits (bytes : List Byte) : Bool := bytes.length ≤ 3584

/-- What the document says of `GLYPH_TABLE` (R69): its first byte is 0xF0 and every byte's low nibble is 0. -/
def Config.wf (c : Config) : Bool :=
  c.glyphTable[0] == 0xF0#8 && c.glyphTable.toList.all fun b => b.extractLsb' 0 4 == 0#4

end Sys2Proof
end

