-- ==== Sys2Proof/Machine/HostOps.lean ====
section
/-! DEFINITION. The host's operations other than STEP_INSTR (10_state.md R40 to R43): RESET, STEP_TIMERS, LOAD,
SET_KEY, and what the output ports show. -/

namespace Sys2Proof.Machine

open Sys2Proof

/-- The code of an outcome, 3 bits (R36, R250). -/
def Code.toBits : Code → BitVec 3
  | .ok => 0
  | .unimplementedInstruction => 1
  | .stackOverflow => 2
  | .stackUnderflow => 3
  | .outOfBoundsAccess => 4
  | .keyIndexOutOfRange => 5
  | .capacityExceeded => 6

/-- The `cmd` port's value for a transaction (R42). -/
def Txn.cmd : Txn → BitVec 3
  | .idle => 0
  | .reset => 1
  | .stepInstr => 2
  | .stepTimers => 3
  | .load _ => 4
  | .setKey _ _ => 5
  | .readDisplay => 6
  | .readState => 7

/-- RESET (R280, R283): every element at its reset value, whatever it held. The build's parameters, the free value's
counter ("reset does not affect it", D7) and the host's own requests are no elements of R44 and stay. -/
def hostReset (s : State) : State :=
  { State.resetWith s.config with draws := s.draws, requests := s.requests }

/-- A timer counts down by 1, floored at 0 (R257). -/
def countDown (t : Byte) : Byte := if t = 0 then 0 else t - 1

/-- STEP_TIMERS (R257). -/
def hostStepTimers (s : State) : State :=
  ((s.setDT (countDown s.DT)).setST (countDown s.ST)).setStatus Status.success

/-- LOAD (R72): the image at 512, or CapacityExceeded and no other change. -/
def hostLoad (bytes : List Byte) (s : State) : State :=
  if imageFits bytes then (s.writeBytes 512 bytes).setStatus Status.success
  else s.setStatus ⟨.capacityExceeded, 0, 0⟩

/-- SET_KEY (R262); an index ≥ 16 leaves the latch and reports KeyIndexOutOfRange (R263). -/
def hostSetKey (index : Nat) (pressed : Bool) (s : State) : State :=
  if h : index < 16 then (s.setKey ⟨index, h⟩ pressed).setStatus Status.success
  else s.setStatus ⟨.keyIndexOutOfRange, 0, 0⟩

/-- The `display` port and the answer of READ_DISPLAY: element `px + 64·py` is `disp[px, py]` (R42, R215). -/
def State.readDisplay (s : State) : Vector Bool 2048 :=
  Vector.ofFn fun k : Fin 2048 => s.pixel ⟨k.val % 64, by omega⟩ ⟨k.val / 64, by omega⟩

/-- The `st_out` port: `ST` (R42, R43). -/
def State.stOut (s : State) : Byte := s.ST

/-- What a read transaction answers. -/
inductive Answer where
  /-- A transaction that is no read answers nothing but STATUS (R36). -/
  | status (st : Status)
  /-- READ_DISPLAY (R215). -/
  | display (bits : Vector Bool 2048)
  /-- READ_STATE (R43): the whole state. -/
  | state (s : State)
  deriving DecidableEq, Repr

/-- The answer to a transaction that left the machine in `s` (R42, R43). -/
def Txn.answer (t : Txn) (s : State) : Answer :=
  match t with
  | .readDisplay => .display s.readDisplay
  | .readState => .state s
  | _ => .status s.status

end Sys2Proof.Machine
end

