-- ==== Sys2Proof/Machine/Step.lean ====
section
/-! DEFINITION. One STEP_INSTR (40_step.md R124), one transaction (10_state.md R40), and one step of the machine with
its host (10_state.md R41). -/

namespace Sys2Proof.Machine

open Sys2Proof

/-- STEP_INSTR (R120 to R127): fetch, decode, execute, in that order of errors. -/
def stepInstr (s : State) : Host.Outcome State Fault Refusal :=
  match s.fetch with
  | none => s.raise .outOfBoundsAccess 0
  | some w =>
    match decodeWord w with
    | none => s.raise .unimplementedInstruction w
    | some i => exec i s

/-- One transaction of the host (R40). The reads and NONE change nothing, STATUS included (R43, R215). -/
def transact (t : Txn) (s : State) : Host.Outcome State Fault Refusal :=
  match t with
  | .idle => .next s
  | .reset => .next (hostReset s)
  | .stepInstr => stepInstr s
  | .stepTimers => .next (hostStepTimers s)
  | .load bytes => .next (hostLoad bytes s)
  | .setKey index pressed => .next (hostSetKey index pressed s)
  | .readDisplay => .next s
  | .readState => .next s

/-- One step: the oldest transaction the host has asked for, and where it has asked for none, one STEP_INSTR
(R41, log 7). -/
def step (s : State) : Host.Outcome State Fault Refusal :=
  match s.requests with
  | [] => stepInstr s
  | t :: rest => transact t { s with requests := rest }

/-- `s` with the instruction of the table word `w` where the very next step fetches it (log 6). -/
def State.withFetchWord (s : State) (nbits w : Nat) : State := s.placeWord (BitVec.ofNat 16 (w % 2 ^ nbits))

end Sys2Proof.Machine
end

