-- ==== Sys2Proof/Safety.lean ====
section
/-! DEFINITION. What counts as a safe run (40_step.md R128, 92_eei_decisions.md D13), the invariants of the machine,
and the words claims about an instruction's frame are written in. -/

namespace Sys2Proof.Safety

open Sys2Proof Sys2Proof.Machine

/-- The fault a claim sees in an outcome: none for OK, and one per error kind of R250. -/
def reportedFault (st : Status) : Option Fault :=
  match st.code with
  | .ok => none
  | .unimplementedInstruction => some (.unimplementedInstruction st.pc st.word)
  | .stackOverflow => some (.stackOverflow st.pc st.word)
  | .stackUnderflow => some (.stackUnderflow st.pc st.word)
  | .outOfBoundsAccess => some (.outOfBoundsAccess st.pc st.word)
  | .keyIndexOutOfRange => some (.keyIndexOutOfRange st.pc st.word)
  | .capacityExceeded => some (.capacityExceeded st.pc st.word)

/-- A step as a claim observes it: an error it reports is a fault, never a final state (R128). A run of it stops at
its first error and keeps it, which is the sticky record of D13. -/
def checkedStep (s : State) : Host.Outcome State Fault Refusal :=
  match step s with
  | .next t =>
    match reportedFault t.status with
    | none => .next t
    | some f => .fault f
  | .fault f => .fault f
  | .refused r => .refused r

/-- A safe run: `k` steps from `s`, none of which reports an error. -/
def runsClean : Nat → State → Prop
  | 0, _ => True
  | k + 1, s =>
    match checkedStep s with
    | .next t => runsClean k t
    | .fault _ => False
    | .refused _ => False

/-! Invariants of the machine -/

/-- Memory has its canonical form. -/
abbrev memoryCanonical (s : State) : Prop := Memory.wf s.config s.mem

/-- `pc` is at most 4350, the largest target of Bnnn, and every stack entry at most 4096, the largest return address
(R27). -/
def pcBounded (s : State) : Prop := s.pc.toNat ≤ 4350 ∧ ∀ j : Fin 16, s.stack[j].toNat ≤ 4096

/-- The words of the instructions that touch memory: Dxyn, Fx33, Fx55, Fx65 (R64). -/
def touchesMemory (w : Word) : Prop :=
  d1 w = 0xD#4 ∨ d1 w = 0xF#4 ∧ (lowByte w = 0x33#8 ∨ lowByte w = 0x55#8 ∨ lowByte w = 0x65#8)

/-- The words of Ex9E and ExA1. -/
def readsKey (w : Word) : Prop := d1 w = 0xE#4 ∧ (lowByte w = 0x9E#8 ∨ lowByte w = 0xA1#8)

/-- STATUS holds one of the rows of R250's table. -/
def statusRow (st : Status) : Prop :=
  match st.code with
  | .ok => st.pc = 0 ∧ st.word = 0
  | .unimplementedInstruction => st.pc.toNat ≤ 4094 ∧ legalWord st.word = false
  | .stackOverflow => st.pc.toNat ≤ 4094 ∧ d1 st.word = 0x2#4
  | .stackUnderflow => st.pc.toNat ≤ 4094 ∧ st.word = 0x00EE#16
  | .outOfBoundsAccess => 4095 ≤ st.pc.toNat ∧ st.word = 0 ∨ st.pc.toNat ≤ 4094 ∧ touchesMemory st.word
  | .keyIndexOutOfRange => st.pc.toNat ≤ 4094 ∧ readsKey st.word ∨ st.pc = 0 ∧ st.word = 0
  | .capacityExceeded => st.pc = 0 ∧ st.word = 0

/-! The words of a frame -/

/-- Every general register but those named is unchanged. -/
def sameRegsBut (written : List Nibble) (s t : State) : Prop := ∀ k : Nibble, k ∉ written → t.reg k = s.reg k

/-- Every byte of memory reads as before. -/
def sameMemory (s t : State) : Prop := ∀ a : Nat, t.readByte a = s.readByte a

/-- The call stack is unchanged: `sp` and every entry, those above `sp` too. -/
def sameStack (s t : State) : Prop := t.sp = s.sp ∧ ∀ j : Fin 16, t.stack[j] = s.stack[j]

/-- Every pixel is unchanged. -/
def sameDisplay (s t : State) : Prop := ∀ (px : Fin 64) (py : Fin 32), t.pixel px py = s.pixel px py

/-- Both timers are unchanged. -/
def sameTimers (s t : State) : Prop := t.DT = s.DT ∧ t.ST = s.ST

/-- The key latch, the build's parameters and the host's requests are unchanged: no instruction writes them (R34). -/
def sameHost (s t : State) : Prop :=
  (∀ k : Fin 16, t.keys[k] = s.keys[k]) ∧ t.config = s.config ∧ t.requests = s.requests

/-- `sameHost`, and no draw is consumed: true of every instruction but Cxnn (R129). -/
def sameOutside (s t : State) : Prop := sameHost s t ∧ t.draws = s.draws

/-- The frame of an instruction that writes `pc`, STATUS and the named registers alone. -/
def onlyRegs (written : List Nibble) (s t : State) : Prop :=
  sameRegsBut written s t ∧ t.I = s.I ∧ sameMemory s t ∧ sameStack s t ∧ sameDisplay s t ∧ sameTimers s t ∧
    sameOutside s t

/-- The one change of an instruction step that reports an error (R125): STATUS. -/
def raised (s : State) (code : Code) (word : Word) : State := { s with status := ⟨code, s.pc, word⟩ }

/-- The error an instruction's own check raises in `s`, if any (R127 point 3, R250). -/
def ownError (i : Instr) (s : State) : Option Code :=
  match i with
  | .ret => if s.sp.val = 0 then some .stackUnderflow else none
  | .call _ => if s.sp.val = 16 then some .stackOverflow else none
  | .skp x => if 16 ≤ (s.reg x).toNat then some .keyIndexOutOfRange else none
  | .sknp x => if 16 ≤ (s.reg x).toNat then some .keyIndexOutOfRange else none
  | .drw _ _ n => if 1 ≤ n.toNat ∧ 4096 < s.I.toNat + n.toNat then some .outOfBoundsAccess else none
  | .ldBV _ => if 4095 < s.I.toNat + 2 then some .outOfBoundsAccess else none
  | .ldMemV x => if 4095 < s.I.toNat + x.toNat then some .outOfBoundsAccess else none
  | .ldVMem x => if 4095 < s.I.toNat + x.toNat then some .outOfBoundsAccess else none
  | .nop => none
  | .cls => none
  | .jp _ => none
  | .seVB _ _ => none
  | .sneVB _ _ => none
  | .seVV _ _ => none
  | .ldVB _ _ => none
  | .addVB _ _ => none
  | .ldVV _ _ => none
  | .or _ _ => none
  | .and _ _ => none
  | .xor _ _ => none
  | .addVV _ _ => none
  | .sub _ _ => none
  | .shr _ _ => none
  | .subn _ _ => none
  | .shl _ _ => none
  | .sneVV _ _ => none
  | .ldI _ => none
  | .jpV0 _ => none
  | .rnd _ _ => none
  | .ldVDT _ => none
  | .ldVK _ => none
  | .ldDTV _ => none
  | .ldSTV _ => none
  | .addIV _ => none
  | .ldFV _ => none

/-- A Dxyn in `s` has a set sprite bit on pixel `(px, py)`: bit `b` of row `r`, the most significant first, both
axes wrapped (R211, R212). -/
def spriteBit (s : State) (x y n : Nibble) (px : Fin 64) (py : Fin 32) : Prop :=
  ∃ r b : Nat, r < n.toNat ∧ b < 8 ∧ (s.readByte (s.dataAddr r)).getLsbD (7 - b) = true ∧
    px.val = ((s.reg x).toNat % 64 + b) % 64 ∧ py.val = ((s.reg y).toNat % 32 + r) % 32

/-- The reset values of R44, element by element, for a build with parameters `c`. -/
def atResetValues (c : Config) (t : State) : Prop :=
  (∀ (a : Nat) (h : a < 80), t.readByte a = c.glyphTable[a]) ∧ (∀ a : Nat, 80 ≤ a → t.readByte a = 0) ∧
    (∀ k : Nibble, t.reg k = 0) ∧ t.I = 0 ∧ t.pc = 512 ∧ t.sp = 0 ∧ (∀ j : Fin 16, t.stack[j] = 0) ∧
    t.DT = 0 ∧ t.ST = 0 ∧ (∀ (px : Fin 64) (py : Fin 32), t.pixel px py = false) ∧
    (∀ k : Fin 16, t.keys[k] = false) ∧ t.status = ⟨.ok, 0, 0⟩

end Sys2Proof.Safety
end

