-- ==== Sys2Proof/Certificates/Slice0/Obligations.lean ====
section
/-! DEFINITION. The statements for the provers, each citing the rules of spec/ it formalises. -/

open Sys2Proof Sys2Proof.Machine Sys2Proof.Safety

/-- Decode after encode is the identity, so no field is dropped (R92, R94, R95). -/
def Obligations.DecodeOfEncodeIsTheInstruction : Prop :=
  ∀ i : Instr, decodeWord (encode i) = some i

/-- Encode after decode is the identity on legal words: the word STATUS.word names is the fetched one (R95, R36). -/
def Obligations.EncodeOfDecodeIsTheWord : Prop :=
  ∀ (w : Word) (i : Instr), decodeWord w = some i → encode i = w

/-- The decoder, written by nibbles, is the mask-and-match table of R94 (R95, R96). -/
def Obligations.DecoderFollowsOpcodeMap : Prop :=
  ∀ w : Word,
    (∀ i, decodeWord w = some i → ∃ r ∈ opRows, r.mnemonic = i.mnemonic ∧ r.matches w = true) ∧
    (decodeWord w = none ↔ ∀ r ∈ opRows, r.matches w = false)

/-- The rows of R94 are disjoint. -/
def Obligations.OpcodeRowsAreDisjoint : Prop :=
  ∀ (w : Word) (r q : OpRow), r ∈ opRows → q ∈ opRows → r.matches w = true → q.matches w = true → r = q

/-- The list of illegal words of R97, less its counts. -/
def Obligations.IllegalWordsByLeadingNibble : Prop :=
  ∀ w : Word, decodeWord w = none ↔
    (d1 w = 0x0#4 ∧ w ≠ 0x0000#16 ∧ w ≠ 0x00E0#16 ∧ w ≠ 0x00EE#16) ∨
    ((d1 w = 0x5#4 ∨ d1 w = 0x9#4) ∧ d4 w ≠ 0x0#4) ∨
    (d1 w = 0x8#4 ∧ 8 ≤ (d4 w).toNat ∧ d4 w ≠ 0xE#4) ∨
    (d1 w = 0xE#4 ∧ lowByte w ≠ 0x9E#8 ∧ lowByte w ≠ 0xA1#8) ∨
    (d1 w = 0xF#4 ∧ lowByte w ∉ [0x07#8, 0x0A#8, 0x15#8, 0x18#8, 0x1E#8, 0x29#8, 0x33#8, 0x55#8, 0x65#8])

/-- Words of the spec's own vectors, one per family (C6, A9, M9, D5, K1, F4). -/
def Obligations.SampleWordsDecode : Prop :=
  decodeWord 0x2ABC#16 = some (.call 0xABC#12) ∧
    decodeWord 0x8014#16 = some (.addVV 0x0#4 0x1#4) ∧
    decodeWord 0xF133#16 = some (.ldBV 0x1#4) ∧
    decodeWord 0xD011#16 = some (.drw 0x0#4 0x1#4 0x1#4) ∧
    decodeWord 0xE59E#16 = some (.skp 0x5#4) ∧
    decodeWord 0x0123#16 = none

/-- STEP_INSTR is fetch, decode, execute (R124). That step with no request is a STEP_INSTR is the model's convention (log 7). -/
def Obligations.StepRunsDecodedInstruction : Prop :=
  ∀ (s : State) (i : Instr), s.requests = [] → s.pc.toNat + 1 ≤ 4095 →
    decodeWord (s.readByte s.pc.toNat ++ s.readByte (s.pc.toNat + 1)) = some i → step s = exec i s

/-- A byte written to memory is seen by the next fetch (R78); withFetchWord is the model's own (log 6). -/
def Obligations.PlacedWordRunsNext : Prop :=
  ∀ (s : State) (nbits w : Nat) (i : Instr), decodeTableWord nbits w = some i →
    step (s.withFetchWord nbits w) = exec i (s.withFetchWord nbits w)

/-- The fetch bound check (R121); that the CORE checks it itself is the spec's decision D19, that step with no request
is a STEP_INSTR the model's convention (log 7). -/
def Obligations.FetchOutsideMemoryRaises : Prop :=
  ∀ s : State, s.requests = [] → 4095 ≤ s.pc.toNat → step s = .next (raised s .outOfBoundsAccess 0)

/-- An illegal word (R97); that the step restores pc is the spec's decision D2, that step with no request is a
STEP_INSTR the model's convention (log 7). -/
def Obligations.IllegalWordRaises : Prop :=
  ∀ s : State, s.requests = [] → s.pc.toNat + 1 ≤ 4095 →
    legalWord (s.readByte s.pc.toNat ++ s.readByte (s.pc.toNat + 1)) = false →
    step s = .next (raised s .unimplementedInstruction (s.readByte s.pc.toNat ++ s.readByte (s.pc.toNat + 1)))

/-- R125: errors are precise. That nothing changes is the spec's decision D2, the layout of STATUS its decision D14, that
step with no request is a STEP_INSTR the model's convention (log 7). -/
def Obligations.FailingStepChangesOnlyStatus : Prop :=
  ∀ s t : State, s.requests = [] → step s = .next t → t.status.code ≠ .ok →
    t = raised s t.status.code
      (if s.pc.toNat + 1 ≤ 4095 then s.readByte s.pc.toNat ++ s.readByte (s.pc.toNat + 1) else 0)

/-- R126 for a step that reports OK, its Fx0A clause too. That step with no request is a STEP_INSTR is the model's
convention (DESIGN CHOICE, log 7); which steps report OK, ErrorsOfEachInstruction says. -/
def Obligations.StepWithoutErrorReportsSuccess : Prop :=
  (∀ s t : State, s.requests = [] → step s = .next t → t.status.code = .ok → t.status = ⟨.ok, 0, 0⟩) ∧
    (∀ (s : State) (x : Nibble), (∀ k : Fin 16, s.keys[k] = false) →
      ∃ t, exec (.ldVK x) s = .next t ∧ t.status = ⟨.ok, 0, 0⟩ ∧ t.pc = s.pc)

/-- R127 point 3 with R250's table; the order of the checks is the spec's decision D24. -/
def Obligations.ErrorsOfEachInstruction : Prop :=
  ∀ (i : Instr) (s : State),
    (∀ code, ownError i s = some code → exec i s = .next (raised s code (encode i))) ∧
    (ownError i s = none → ∃ t, exec i s = .next t ∧ t.status = ⟨.ok, 0, 0⟩)

/-- An error is the outcome of its step and control goes back to the host (R253, R254); the model's reading is log 1. -/
def Obligations.EveryStepAnswersNext : Prop :=
  ∀ s : State, ∃ t, step s = .next t

/-- R129 and R130, with the draw as the model holds it (log 5). -/
def Obligations.OnlyRandomReadsTheDraw : Prop :=
  ∀ (i : Instr) (s : State) (d : Nat), (∀ x nn, i ≠ .rnd x nn) →
    ∃ t, exec i s = .next t ∧ exec i { s with draws := d } = .next { t with draws := d }

/-- The latch is read-only to the interpreter (R34, R35); parameters and requests are the model's fields (log 3, log 7). -/
def Obligations.InstructionsLeaveTheHostsState : Prop :=
  ∀ (i : Instr) (s t : State), exec i s = .next t → sameHost s t

/-- The writers that R21, R22, R24, R29, R31, R33 and R64 list, over all instructions at once. -/
def Obligations.WritersOfEachElement : Prop :=
  ∀ (i : Instr) (s t : State), exec i s = .next t →
    (∀ k : Nibble, t.reg k ≠ s.reg k →
      (∃ nn, i = .ldVB k nn ∨ i = .addVB k nn ∨ i = .rnd k nn) ∨
      (∃ y, i = .ldVV k y ∨ i = .or k y ∨ i = .and k y ∨ i = .xor k y ∨ i = .addVV k y ∨ i = .sub k y ∨
        i = .shr k y ∨ i = .subn k y ∨ i = .shl k y) ∨
      i = .ldVDT k ∨ i = .ldVK k ∨ (∃ x, i = .ldVMem x ∧ k.toNat ≤ x.toNat) ∨
      (k = 0xF#4 ∧ ((∃ x y, i = .addVV x y ∨ i = .sub x y ∨ i = .shr x y ∨ i = .subn x y ∨ i = .shl x y) ∨
        ∃ x y n, i = .drw x y n))) ∧
    (t.I ≠ s.I → (∃ nnn, i = .ldI nnn) ∨ ∃ x, i = .addIV x ∨ i = .ldFV x) ∧
    (¬sameStack s t → i = .ret ∨ ∃ nnn, i = .call nnn) ∧
    (t.DT ≠ s.DT → ∃ x, i = .ldDTV x) ∧
    (t.ST ≠ s.ST → ∃ x, i = .ldSTV x) ∧
    (¬sameDisplay s t → i = .cls ∨ ∃ x y n, i = .drw x y n) ∧
    (¬sameMemory s t → ∃ x, i = .ldBV x ∨ i = .ldMemV x) ∧
    (t.draws ≠ s.draws → ∃ x nn, i = .rnd x nn)

/-- For claims an error is a fault (R128); the sticky record is the spec's decision D13. -/
def Obligations.CheckedStepEndsAtAnError : Prop :=
  ∀ s t : State, checkedStep s = .next t ↔ step s = .next t ∧ t.status.code = .ok

/-- Memory is 4096 bytes (R60); the canonical form is the model's representation of it. -/
def Obligations.StepKeepsMemoryCanonical : Prop :=
  ∀ s t : State, memoryCanonical s → step s = .next t → memoryCanonical t

/-- R27: the largest value pc can hold is 4350, so that it never wraps. -/
def Obligations.StepKeepsPcBounded : Prop :=
  ∀ s t : State, pcBounded s → step s = .next t → pcBounded t

/-- R250's table of STATUS; its codes are the spec's decision D14. -/
def Obligations.StepKeepsStatusRow : Prop :=
  ∀ s t : State, statusRow s.status → step s = .next t → statusRow t.status

/-- The parameters of R9 are the build's; that State holds them is the model's choice (log 3, log 4). -/
def Obligations.StepKeepsParameters : Prop :=
  ∀ s t : State, step s = .next t → t.config = s.config

/-- The invariants at reset (R44). That the default font meets R69's constraints is of a PRESUMED value (log 4). -/
def Obligations.ResetMeetsInvariants : Prop :=
  (∀ c : Config, memoryCanonical (State.resetWith c) ∧ pcBounded (State.resetWith c) ∧
      statusRow (State.resetWith c).status) ∧ State.reset.config.wf = true

/-- The reset values of R44. That STATUS resets to (OK, 0, 0) is the spec's decision D14. -/
def Obligations.ResetValues : Prop :=
  ∀ c : Config, atResetValues c (State.resetWith c)

/-- R140. -/
def Obligations.NopResult : Prop :=
  decodeWord 0x0000#16 = some .nop ∧
    (∀ w : Word, d1 w = 0x0#4 → w ∉ [0x0000#16, 0x00E0#16, 0x00EE#16] → decodeWord w = none) ∧
    ∀ s : State, ∃ t, exec .nop s = .next t ∧ t.status = ⟨.ok, 0, 0⟩ ∧ t.pc = s.pc + 2 ∧ onlyRegs [] s t

/-- R141 and R29; that the entry is kept is the spec's decision D16, that an error changes nothing D2. -/
def Obligations.ReturnResult : Prop :=
  decodeWord 0x00EE#16 = some .ret ∧ ∀ s : State,
    (∀ j : Fin 16, s.sp.val = j.val + 1 →
      ∃ t, exec .ret s = .next t ∧ t.status = ⟨.ok, 0, 0⟩ ∧ t.pc = s.stack[j] ∧ t.sp.val = j.val ∧
        (∀ k : Fin 16, t.stack[k] = s.stack[k]) ∧ sameRegsBut [] s t ∧ t.I = s.I ∧ sameMemory s t ∧
        sameDisplay s t ∧ sameTimers s t ∧ sameOutside s t) ∧
    (s.sp.val = 0 → exec .ret s = .next (raised s .stackUnderflow 0x00EE#16))

/-- R142; a target is never checked. -/
def Obligations.JumpResult : Prop :=
  ∀ (nnn : Addr) (s : State), decodeWord (0x1#4 ++ nnn) = some (.jp nnn) ∧
    ∃ t, exec (.jp nnn) s = .next t ∧ t.status = ⟨.ok, 0, 0⟩ ∧ t.pc.toNat = nnn.toNat ∧ onlyRegs [] s t

/-- R143 and R29; that an error changes nothing is the spec's decision D2. -/
def Obligations.CallResult : Prop :=
  ∀ (nnn : Addr) (s : State), decodeWord (0x2#4 ++ nnn) = some (.call nnn) ∧
    (∀ j : Fin 16, s.sp.val = j.val →
      ∃ t, exec (.call nnn) s = .next t ∧ t.status = ⟨.ok, 0, 0⟩ ∧ t.pc.toNat = nnn.toNat ∧
        t.sp.val = j.val + 1 ∧ t.stack[j] = s.pc + 2 ∧ (∀ k : Fin 16, k ≠ j → t.stack[k] = s.stack[k]) ∧
        sameRegsBut [] s t ∧ t.I = s.I ∧ sameMemory s t ∧ sameDisplay s t ∧ sameTimers s t ∧ sameOutside s t) ∧
    (s.sp.val = 16 → exec (.call nnn) s = .next (raised s .stackOverflow (0x2#4 ++ nnn)))

/-- Push and pop are last in, first out (R29). -/
def Obligations.CallThenReturn : Prop :=
  ∀ (nnn : Addr) (s : State), s.sp.val < 16 →
    ∃ t u, exec (.call nnn) s = .next t ∧ exec .ret t = .next u ∧ u.status = ⟨.ok, 0, 0⟩ ∧
      u.pc = s.pc + 2 ∧ u.sp = s.sp ∧ (∀ k : Fin 16, k.val ≠ s.sp.val → u.stack[k] = s.stack[k]) ∧
      sameRegsBut [] s u ∧ u.I = s.I ∧ sameMemory s u ∧ sameDisplay s u ∧ sameTimers s u ∧ sameOutside s u

/-- R144, R145; VF is compared like any register, and the word passed over is never read. -/
def Obligations.SkipOnByteResult : Prop :=
  ∀ (x : Nibble) (nn : Byte) (s : State),
    decodeWord (0x3#4 ++ x ++ nn) = some (.seVB x nn) ∧ decodeWord (0x4#4 ++ x ++ nn) = some (.sneVB x nn) ∧
    (∃ t, exec (.seVB x nn) s = .next t ∧ t.status = ⟨.ok, 0, 0⟩ ∧
      t.pc = (if s.reg x = nn then s.pc + 4 else s.pc + 2) ∧ onlyRegs [] s t) ∧
    (∃ t, exec (.sneVB x nn) s = .next t ∧ t.status = ⟨.ok, 0, 0⟩ ∧
      t.pc = (if s.reg x ≠ nn then s.pc + 4 else s.pc + 2) ∧ onlyRegs [] s t)

/-- R147. -/
def Obligations.SkipOnUnequalRegistersResult : Prop :=
  ∀ (x y : Nibble) (s : State), decodeWord (0x9#4 ++ x ++ y ++ 0x0#4) = some (.sneVV x y) ∧
    (∀ k : Nibble, k ≠ 0x0#4 → decodeWord (0x9#4 ++ x ++ y ++ k) = none) ∧
    ∃ t, exec (.sneVV x y) s = .next t ∧ t.status = ⟨.ok, 0, 0⟩ ∧
      t.pc = (if s.reg x ≠ s.reg y then s.pc + 4 else s.pc + 2) ∧ onlyRegs [] s t

/-- R146 for both values of the parameter, which D3 leaves open; no value of it is assumed (log 3). -/
def Obligations.RegisterCompareSkipBothPolarities : Prop :=
  ∀ (x y : Nibble) (s : State), decodeWord (0x5#4 ++ x ++ y ++ 0x0#4) = some (.seVV x y) ∧
    ∃ t, exec (.seVV x y) s = .next t ∧ t.status = ⟨.ok, 0, 0⟩ ∧ onlyRegs [] s t ∧
      (s.config.skip5OnEqual = true → t.pc = if s.reg x = s.reg y then s.pc + 4 else s.pc + 2) ∧
      (s.config.skip5OnEqual = false → t.pc = if s.reg x ≠ s.reg y then s.pc + 4 else s.pc + 2)

/-- R148; that the target is not checked here is the spec's decision D19. -/
def Obligations.OffsetJumpResult : Prop :=
  ∀ (nnn : Addr) (s : State), decodeWord (0xB#4 ++ nnn) = some (.jpV0 nnn) ∧
    ∃ t, exec (.jpV0 nnn) s = .next t ∧ t.status = ⟨.ok, 0, 0⟩ ∧
      t.pc.toNat = (s.reg 0x0#4).toNat + nnn.toNat ∧ onlyRegs [] s t

/-- R160, R161. -/
def Obligations.ByteLoadAndAddResult : Prop :=
  ∀ (x : Nibble) (nn : Byte) (s : State),
    decodeWord (0x6#4 ++ x ++ nn) = some (.ldVB x nn) ∧ decodeWord (0x7#4 ++ x ++ nn) = some (.addVB x nn) ∧
    (∃ t, exec (.ldVB x nn) s = .next t ∧ t.status = ⟨.ok, 0, 0⟩ ∧ t.pc = s.pc + 2 ∧
      t.reg x = nn ∧ onlyRegs [x] s t) ∧
    (∃ t, exec (.addVB x nn) s = .next t ∧ t.status = ⟨.ok, 0, 0⟩ ∧ t.pc = s.pc + 2 ∧
      (t.reg x).toNat = ((s.reg x).toNat + nn.toNat) % 256 ∧ onlyRegs [x] s t)

/-- R162 to R165. -/
def Obligations.CopyAndLogicResult : Prop :=
  ∀ (x y : Nibble) (s : State),
    decodeWord (0x8#4 ++ x ++ y ++ 0x0#4) = some (.ldVV x y) ∧
    decodeWord (0x8#4 ++ x ++ y ++ 0x1#4) = some (.or x y) ∧
    decodeWord (0x8#4 ++ x ++ y ++ 0x2#4) = some (.and x y) ∧
    decodeWord (0x8#4 ++ x ++ y ++ 0x3#4) = some (.xor x y) ∧
    (∃ t, exec (.ldVV x y) s = .next t ∧ t.status = ⟨.ok, 0, 0⟩ ∧ t.pc = s.pc + 2 ∧
      t.reg x = s.reg y ∧ onlyRegs [x] s t) ∧
    (∃ t, exec (.or x y) s = .next t ∧ t.status = ⟨.ok, 0, 0⟩ ∧ t.pc = s.pc + 2 ∧
      (∀ b, (t.reg x).getLsbD b = ((s.reg x).getLsbD b || (s.reg y).getLsbD b)) ∧ onlyRegs [x] s t) ∧
    (∃ t, exec (.and x y) s = .next t ∧ t.status = ⟨.ok, 0, 0⟩ ∧ t.pc = s.pc + 2 ∧
      (∀ b, (t.reg x).getLsbD b = ((s.reg x).getLsbD b && (s.reg y).getLsbD b)) ∧ onlyRegs [x] s t) ∧
    (∃ t, exec (.xor x y) s = .next t ∧ t.status = ⟨.ok, 0, 0⟩ ∧ t.pc = s.pc + 2 ∧
      (∀ b, (t.reg x).getLsbD b = ((s.reg x).getLsbD b ^^ (s.reg y).getLsbD b)) ∧ onlyRegs [x] s t)

/-- R166, R23: with x = 15 the flag overwrites the sum, with y = 15 the addend is the old VF. -/
def Obligations.AddWithCarryResult : Prop :=
  ∀ (x y : Nibble) (s : State), decodeWord (0x8#4 ++ x ++ y ++ 0x4#4) = some (.addVV x y) ∧
    ∃ t, exec (.addVV x y) s = .next t ∧ t.status = ⟨.ok, 0, 0⟩ ∧ t.pc = s.pc + 2 ∧
      (x ≠ 0xF#4 → (t.reg x).toNat = ((s.reg x).toNat + (s.reg y).toNat) % 256) ∧
      (t.reg 0xF#4).toNat = (if 256 ≤ (s.reg x).toNat + (s.reg y).toNat then 1 else 0) ∧
      onlyRegs [x, 0xF#4] s t

/-- R167, R169. -/
def Obligations.SubtractResult : Prop :=
  ∀ (x y : Nibble) (s : State),
    decodeWord (0x8#4 ++ x ++ y ++ 0x5#4) = some (.sub x y) ∧
    decodeWord (0x8#4 ++ x ++ y ++ 0x7#4) = some (.subn x y) ∧
    (∃ t, exec (.sub x y) s = .next t ∧ t.status = ⟨.ok, 0, 0⟩ ∧ t.pc = s.pc + 2 ∧
      (x ≠ 0xF#4 → ((t.reg x).toNat : Int) = ((s.reg x).toNat - (s.reg y).toNat : Int) % 256) ∧
      (t.reg 0xF#4).toNat = (if (s.reg x).toNat < (s.reg y).toNat then 0 else 1) ∧ onlyRegs [x, 0xF#4] s t) ∧
    (∃ t, exec (.subn x y) s = .next t ∧ t.status = ⟨.ok, 0, 0⟩ ∧ t.pc = s.pc + 2 ∧
      (x ≠ 0xF#4 → ((t.reg x).toNat : Int) = ((s.reg y).toNat - (s.reg x).toNat : Int) % 256) ∧
      (t.reg 0xF#4).toNat = (if (s.reg y).toNat < (s.reg x).toNat then 0 else 1) ∧ onlyRegs [x, 0xF#4] s t)

/-- R168, R170; y is a don't-care. -/
def Obligations.ShiftResult : Prop :=
  ∀ (x y : Nibble) (s : State),
    decodeWord (0x8#4 ++ x ++ y ++ 0x6#4) = some (.shr x y) ∧
    decodeWord (0x8#4 ++ x ++ y ++ 0xE#4) = some (.shl x y) ∧
    exec (.shr x y) s = exec (.shr x 0) s ∧ exec (.shl x y) s = exec (.shl x 0) s ∧
    (∃ t, exec (.shr x y) s = .next t ∧ t.status = ⟨.ok, 0, 0⟩ ∧ t.pc = s.pc + 2 ∧
      (x ≠ 0xF#4 → (t.reg x).toNat = (s.reg x).toNat / 2) ∧
      (t.reg 0xF#4).toNat = (s.reg x).toNat % 2 ∧ onlyRegs [x, 0xF#4] s t) ∧
    (∃ t, exec (.shl x y) s = .next t ∧ t.status = ⟨.ok, 0, 0⟩ ∧ t.pc = s.pc + 2 ∧
      (x ≠ 0xF#4 → (t.reg x).toNat = (s.reg x).toNat * 2 % 256) ∧
      (t.reg 0xF#4).toNat = (s.reg x).toNat / 128 ∧ onlyRegs [x, 0xF#4] s t)

/-- R176 with the draw the free value Config.randByte (log 5): nothing is said of what it is. -/
def Obligations.RandomResult : Prop :=
  ∀ (x : Nibble) (nn : Byte) (s : State), decodeWord (0xC#4 ++ x ++ nn) = some (.rnd x nn) ∧
    ∃ t, exec (.rnd x nn) s = .next t ∧ t.status = ⟨.ok, 0, 0⟩ ∧ t.pc = s.pc + 2 ∧
      (∀ b, (t.reg x).getLsbD b = ((Config.randByte s.draws).getLsbD b && nn.getLsbD b)) ∧
      t.draws = s.draws + 1 ∧ sameRegsBut [x] s t ∧ t.I = s.I ∧ sameMemory s t ∧ sameStack s t ∧
      sameDisplay s t ∧ sameTimers s t ∧ sameHost s t

/-- R190. -/
def Obligations.LoadIndexResult : Prop :=
  ∀ (nnn : Addr) (s : State), decodeWord (0xA#4 ++ nnn) = some (.ldI nnn) ∧
    ∃ t, exec (.ldI nnn) s = .next t ∧ t.status = ⟨.ok, 0, 0⟩ ∧ t.pc = s.pc + 2 ∧ t.I.toNat = nnn.toNat ∧
      sameRegsBut [] s t ∧ sameMemory s t ∧ sameStack s t ∧ sameDisplay s t ∧ sameTimers s t ∧ sameOutside s t

/-- R191, R192; the wrap is the spec's decision D11, the missing mask D25. -/
def Obligations.IndexArithmeticResult : Prop :=
  ∀ (x : Nibble) (s : State),
    decodeWord (0xF#4 ++ x ++ 0x1E#8) = some (.addIV x) ∧ decodeWord (0xF#4 ++ x ++ 0x29#8) = some (.ldFV x) ∧
    (∃ t, exec (.addIV x) s = .next t ∧ t.status = ⟨.ok, 0, 0⟩ ∧ t.pc = s.pc + 2 ∧
      t.I.toNat = (s.I.toNat + (s.reg x).toNat) % 65536 ∧
      sameRegsBut [] s t ∧ sameMemory s t ∧ sameStack s t ∧ sameDisplay s t ∧ sameTimers s t ∧ sameOutside s t) ∧
    (∃ t, exec (.ldFV x) s = .next t ∧ t.status = ⟨.ok, 0, 0⟩ ∧ t.pc = s.pc + 2 ∧
      t.I.toNat = (s.reg x).toNat * 5 ∧
      sameRegsBut [] s t ∧ sameMemory s t ∧ sameStack s t ∧ sameDisplay s t ∧ sameTimers s t ∧ sameOutside s t)

/-- R203; that no byte is written on an error is the spec's decision D2. -/
def Obligations.DecimalStoreResult : Prop :=
  ∀ (x : Nibble) (s : State), decodeWord (0xF#4 ++ x ++ 0x33#8) = some (.ldBV x) ∧
    (s.I.toNat + 2 ≤ 4095 →
      ∃ t, exec (.ldBV x) s = .next t ∧ t.status = ⟨.ok, 0, 0⟩ ∧ t.pc = s.pc + 2 ∧
        (t.readByte (s.dataAddr 0)).toNat = (s.reg x).toNat / 100 ∧
        (t.readByte (s.dataAddr 1)).toNat = (s.reg x).toNat / 10 % 10 ∧
        (t.readByte (s.dataAddr 2)).toNat = (s.reg x).toNat % 10 ∧
        (∀ a : Nat, a < s.dataAddr 0 ∨ s.dataAddr 2 < a → t.readByte a = s.readByte a) ∧
        sameRegsBut [] s t ∧ t.I = s.I ∧ sameStack s t ∧ sameDisplay s t ∧ sameTimers s t ∧ sameOutside s t) ∧
    (4095 < s.I.toNat + 2 → exec (.ldBV x) s = .next (raised s .outOfBoundsAccess (0xF#4 ++ x ++ 0x33#8)))

/-- R204; that no byte is written on an error is the spec's decision D2. -/
def Obligations.StoreRegistersResult : Prop :=
  ∀ (x : Nibble) (s : State), decodeWord (0xF#4 ++ x ++ 0x55#8) = some (.ldMemV x) ∧
    (s.I.toNat + x.toNat ≤ 4095 →
      ∃ t, exec (.ldMemV x) s = .next t ∧ t.status = ⟨.ok, 0, 0⟩ ∧ t.pc = s.pc + 2 ∧
        (∀ k : Nibble, k.toNat ≤ x.toNat → t.readByte (s.dataAddr k.toNat) = s.reg k) ∧
        (∀ a : Nat, a < s.dataAddr 0 ∨ s.dataAddr x.toNat < a → t.readByte a = s.readByte a) ∧
        sameRegsBut [] s t ∧ t.I = s.I ∧ sameStack s t ∧ sameDisplay s t ∧ sameTimers s t ∧ sameOutside s t) ∧
    (4095 < s.I.toNat + x.toNat →
      exec (.ldMemV x) s = .next (raised s .outOfBoundsAccess (0xF#4 ++ x ++ 0x55#8)))

/-- R205; that no register is written on an error is the spec's decision D2. -/
def Obligations.LoadRegistersResult : Prop :=
  ∀ (x : Nibble) (s : State), decodeWord (0xF#4 ++ x ++ 0x65#8) = some (.ldVMem x) ∧
    (s.I.toNat + x.toNat ≤ 4095 →
      ∃ t, exec (.ldVMem x) s = .next t ∧ t.status = ⟨.ok, 0, 0⟩ ∧ t.pc = s.pc + 2 ∧
        (∀ k : Nibble, k.toNat ≤ x.toNat → t.reg k = s.readByte (s.dataAddr k.toNat)) ∧
        (∀ k : Nibble, x.toNat < k.toNat → t.reg k = s.reg k) ∧
        t.I = s.I ∧ sameMemory s t ∧ sameStack s t ∧ sameDisplay s t ∧ sameTimers s t ∧ sameOutside s t) ∧
    (4095 < s.I.toNat + x.toNat →
      exec (.ldVMem x) s = .next (raised s .outOfBoundsAccess (0xF#4 ++ x ++ 0x65#8)))

/-- R204 and R205 with R75: a read sees the last write to the byte. -/
def Obligations.StoreThenLoadRestoresRegisters : Prop :=
  ∀ (x : Nibble) (s : State) (V : Vector Byte 16), s.I.toNat + x.toNat ≤ 4095 →
    ∃ t u, exec (.ldMemV x) s = .next t ∧ exec (.ldVMem x) { t with V := V } = .next u ∧
      ∀ k : Nibble, k.toNat ≤ x.toNat → u.reg k = s.reg k

/-- R78: a store is seen by every later fetch with no intervening action. That step with no request is a STEP_INSTR is
the model's convention (log 7). -/
def Obligations.StoreIsSeenByTheNextFetch : Prop :=
  ∀ (s : State) (i : Instr), s.requests = [] → s.I = s.pc + 2 → s.pc.toNat + 3 ≤ 4095 →
    decodeWord (s.reg 0x0#4 ++ s.reg 0x1#4) = some i →
    ∃ t, exec (.ldMemV 0x1#4) s = .next t ∧ step t = exec i t

/-- R210. -/
def Obligations.ClearScreenResult : Prop :=
  decodeWord 0x00E0#16 = some .cls ∧
    ∀ s : State, ∃ t, exec .cls s = .next t ∧ t.status = ⟨.ok, 0, 0⟩ ∧ t.pc = s.pc + 2 ∧
      (∀ (px : Fin 64) (py : Fin 32), t.pixel px py = false) ∧
      sameRegsBut [] s t ∧ t.I = s.I ∧ sameMemory s t ∧ sameStack s t ∧ sameTimers s t ∧ sameOutside s t

/-- R211 to R213; n = 0 draws nothing and writes VF 0, the spec's decision D9 (R214). -/
def Obligations.DrawResult : Prop :=
  ∀ (x y n : Nibble) (s : State), decodeWord (0xD#4 ++ x ++ y ++ n) = some (.drw x y n) ∧
    (n = 0 ∨ s.I.toNat + n.toNat ≤ 4096 →
      ∃ t, exec (.drw x y n) s = .next t ∧ t.status = ⟨.ok, 0, 0⟩ ∧ t.pc = s.pc + 2 ∧
        (∀ (px : Fin 64) (py : Fin 32),
          (spriteBit s x y n px py → t.pixel px py = !s.pixel px py) ∧
          (¬spriteBit s x y n px py → t.pixel px py = s.pixel px py)) ∧
        ((∃ (px : Fin 64) (py : Fin 32), spriteBit s x y n px py ∧ s.pixel px py = true) → t.reg 0xF#4 = 1) ∧
        ((∀ (px : Fin 64) (py : Fin 32), spriteBit s x y n px py → s.pixel px py = false) → t.reg 0xF#4 = 0) ∧
        sameRegsBut [0xF#4] s t ∧ t.I = s.I ∧ sameMemory s t ∧ sameStack s t ∧ sameTimers s t ∧
        sameOutside s t)

/-- R211's bound check; that n = 0 makes none is the spec's decision D9. -/
def Obligations.DrawOutsideMemoryRaises : Prop :=
  ∀ (x y n : Nibble) (s : State),
    (1 ≤ n.toNat → 4095 < s.I.toNat + n.toNat - 1 →
      exec (.drw x y n) s = .next (raised s .outOfBoundsAccess (0xD#4 ++ x ++ y ++ n))) ∧
    ∃ t, exec (.drw x y 0x0#4) s = .next t ∧ t.status = ⟨.ok, 0, 0⟩

/-- R211's XOR is its own inverse, the property of E9 for every sprite, place and display. -/
def Obligations.DrawTwiceRestoresTheDisplay : Prop :=
  ∀ (x y n : Nibble) (s : State), x ≠ 0xF#4 → y ≠ 0xF#4 → s.I.toNat + n.toNat ≤ 4096 →
    ∃ t u, exec (.drw x y n) s = .next t ∧ exec (.drw x y n) t = .next u ∧ sameDisplay s u ∧
      ((∃ (px : Fin 64) (py : Fin 32), spriteBit s x y n px py ∧ s.pixel px py = false) → u.reg 0xF#4 = 1) ∧
      ((∀ (px : Fin 64) (py : Fin 32), spriteBit s x y n px py → s.pixel px py = true) → u.reg 0xF#4 = 0)

/-- R231, R232; the error is the spec's decision D5 (R230). -/
def Obligations.KeySkipResult : Prop :=
  ∀ (x : Nibble) (s : State),
    decodeWord (0xE#4 ++ x ++ 0x9E#8) = some (.skp x) ∧ decodeWord (0xE#4 ++ x ++ 0xA1#8) = some (.sknp x) ∧
    (∀ k : Fin 16, (s.reg x).toNat = k.val →
      (∃ t, exec (.skp x) s = .next t ∧ t.status = ⟨.ok, 0, 0⟩ ∧
        t.pc = (if s.keys[k] = true then s.pc + 4 else s.pc + 2) ∧ onlyRegs [] s t) ∧
      (∃ t, exec (.sknp x) s = .next t ∧ t.status = ⟨.ok, 0, 0⟩ ∧
        t.pc = (if s.keys[k] = false then s.pc + 4 else s.pc + 2) ∧ onlyRegs [] s t)) ∧
    (16 ≤ (s.reg x).toNat →
      exec (.skp x) s = .next (raised s .keyIndexOutOfRange (0xE#4 ++ x ++ 0x9E#8)) ∧
      exec (.sknp x) s = .next (raised s .keyIndexOutOfRange (0xE#4 ++ x ++ 0xA1#8)))

/-- R233, R235, R236. -/
def Obligations.TimerTransferResult : Prop :=
  ∀ (x : Nibble) (s : State),
    decodeWord (0xF#4 ++ x ++ 0x07#8) = some (.ldVDT x) ∧ decodeWord (0xF#4 ++ x ++ 0x15#8) = some (.ldDTV x) ∧
    decodeWord (0xF#4 ++ x ++ 0x18#8) = some (.ldSTV x) ∧
    (∃ t, exec (.ldVDT x) s = .next t ∧ t.status = ⟨.ok, 0, 0⟩ ∧ t.pc = s.pc + 2 ∧ t.reg x = s.DT ∧
      onlyRegs [x] s t) ∧
    (∃ t, exec (.ldDTV x) s = .next t ∧ t.status = ⟨.ok, 0, 0⟩ ∧ t.pc = s.pc + 2 ∧ t.DT = s.reg x ∧
      t.ST = s.ST ∧ sameRegsBut [] s t ∧ t.I = s.I ∧ sameMemory s t ∧ sameStack s t ∧ sameDisplay s t ∧
      sameOutside s t) ∧
    (∃ t, exec (.ldSTV x) s = .next t ∧ t.status = ⟨.ok, 0, 0⟩ ∧ t.pc = s.pc + 2 ∧ t.ST = s.reg x ∧
      t.DT = s.DT ∧ sameRegsBut [] s t ∧ t.I = s.I ∧ sameMemory s t ∧ sameStack s t ∧ sameDisplay s t ∧
      sameOutside s t)

/-- R234: a spin-poll, level-sensitive; a step that waits reports OK. -/
def Obligations.BlockForKeyResult : Prop :=
  ∀ (x : Nibble) (s : State), decodeWord (0xF#4 ++ x ++ 0x0A#8) = some (.ldVK x) ∧
    (∀ k : Fin 16, s.keys[k] = true → (∀ j : Fin 16, j < k → s.keys[j] = false) →
      ∃ t, exec (.ldVK x) s = .next t ∧ t.status = ⟨.ok, 0, 0⟩ ∧ t.pc = s.pc + 2 ∧
        (t.reg x).toNat = k.val ∧ onlyRegs [x] s t) ∧
    ((∀ k : Fin 16, s.keys[k] = false) →
      ∃ t, exec (.ldVK x) s = .next t ∧ t.status = ⟨.ok, 0, 0⟩ ∧ t.pc = s.pc ∧ onlyRegs [] s t)

/-- R257. -/
def Obligations.TimerStepResult : Prop :=
  ∀ s : State, ∃ t, transact .stepTimers s = .next t ∧ t.status = ⟨.ok, 0, 0⟩ ∧
      t.DT.toNat = s.DT.toNat - 1 ∧ t.ST.toNat = s.ST.toNat - 1 ∧
      t.pc = s.pc ∧ sameRegsBut [] s t ∧ t.I = s.I ∧ sameMemory s t ∧ sameStack s t ∧ sameDisplay s t ∧
      sameOutside s t

/-- R72, R73; that LOAD may come at any time and be of any length is the spec's decision D20. -/
def Obligations.LoadProgramResult : Prop :=
  ∀ (bytes : List Byte) (s : State),
    (bytes.length ≤ 3584 →
      ∃ t, transact (.load bytes) s = .next t ∧ t.status = ⟨.ok, 0, 0⟩ ∧ t.pc = s.pc ∧
        (∀ (k : Nat) (b : Byte), bytes[k]? = some b → t.readByte (512 + k) = b) ∧
        (∀ a : Nat, a < 512 ∨ 512 + bytes.length ≤ a → t.readByte a = s.readByte a) ∧
        sameRegsBut [] s t ∧ t.I = s.I ∧ sameStack s t ∧ sameDisplay s t ∧ sameTimers s t ∧ sameOutside s t) ∧
    (3584 < bytes.length → transact (.load bytes) s = .next { s with status := ⟨.capacityExceeded, 0, 0⟩ })

/-- R262; the model's index is wider than the port, so R263's error applies, the spec's decision D6 (log 8). -/
def Obligations.SetKeyResult : Prop :=
  ∀ (pressed : Bool) (s : State),
    (∀ k : Fin 16, ∃ t, transact (.setKey k.val pressed) s = .next t ∧ t.status = ⟨.ok, 0, 0⟩ ∧ t.pc = s.pc ∧
      t.keys[k] = pressed ∧ (∀ j : Fin 16, j ≠ k → t.keys[j] = s.keys[j]) ∧ sameRegsBut [] s t ∧ t.I = s.I ∧
      sameMemory s t ∧ sameStack s t ∧ sameDisplay s t ∧ sameTimers s t ∧ t.config = s.config ∧
      t.requests = s.requests ∧ t.draws = s.draws) ∧
    (∀ index : Nat, 16 ≤ index →
      transact (.setKey index pressed) s = .next { s with status := ⟨.keyIndexOutOfRange, 0, 0⟩ })

/-- R280, R281, R283; that the parameters, the draws and the host's requests stay is the model's (log 3, log 5, log 7). -/
def Obligations.ResetResult : Prop :=
  ∀ s : State, ∃ t, transact .reset s = .next t ∧ atResetValues s.config t ∧ t.config = s.config ∧
      t.draws = s.draws ∧ t.requests = s.requests ∧ transact .reset t = .next t

/-- R215 and R43; READ_STATE and st_out are the spec's decision D15. That NONE, which R42 lists, changes nothing, and
that READ_STATE answers the model's own fields too, is DEDUCED (log 15). -/
def Obligations.ReadsChangeNothing : Prop :=
  ∀ s : State,
    transact .readDisplay s = .next s ∧ transact .readState s = .next s ∧ transact .idle s = .next s ∧
    (∃ bits, Txn.readDisplay.answer s = .display bits ∧
      ∀ (px : Fin 64) (py : Fin 32), bits[px.val + 64 * py.val]? = some (s.pixel px py)) ∧
    Txn.readState.answer s = .state s ∧ s.stOut = s.ST

/-- R41: one transaction at a time, in the host's order; that State holds them is the model's choice (log 7). -/
def Obligations.RequestsAreServedInOrder : Prop :=
  ∀ (s : State) (t : Txn) (rest : List Txn), s.requests = t :: rest →
    step s = transact t { s with requests := rest }
end

