-- ==== Sys2Proof/Laws/Decode.lean ====
section
/-! SUPPORT. The fields of a word put together from its fields, and a word as its four nibbles (30_encoding.md R91). -/

namespace Sys2Proof

variable (a b c e x : Nibble) (n : Addr) (k hi lo : Byte) (w : Word)

@[simp] theorem d1_nibbles : d1 (a ++ b ++ c ++ e) = a := by
  refine BitVec.eq_of_getLsbD_eq fun i hi => ?_
  simp only [d1, BitVec.getLsbD_extractLsb', BitVec.getLsbD_append]
  interval_cases i <;> simp

@[simp] theorem d2_nibbles : d2 (a ++ b ++ c ++ e) = b := by
  refine BitVec.eq_of_getLsbD_eq fun i hi => ?_
  simp only [d2, BitVec.getLsbD_extractLsb', BitVec.getLsbD_append]
  interval_cases i <;> simp

@[simp] theorem d3_nibbles : d3 (a ++ b ++ c ++ e) = c := by
  refine BitVec.eq_of_getLsbD_eq fun i hi => ?_
  simp only [d3, BitVec.getLsbD_extractLsb', BitVec.getLsbD_append]
  interval_cases i <;> simp

@[simp] theorem d4_nibbles : d4 (a ++ b ++ c ++ e) = e := by
  refine BitVec.eq_of_getLsbD_eq fun i hi => ?_
  simp only [d4, BitVec.getLsbD_extractLsb', BitVec.getLsbD_append]
  interval_cases i <;> simp

@[simp] theorem d1_byte : d1 (a ++ x ++ k) = a := by
  refine BitVec.eq_of_getLsbD_eq fun i hi => ?_
  simp only [d1, BitVec.getLsbD_extractLsb', BitVec.getLsbD_append]
  interval_cases i <;> simp

@[simp] theorem d2_byte : d2 (a ++ x ++ k) = x := by
  refine BitVec.eq_of_getLsbD_eq fun i hi => ?_
  simp only [d2, BitVec.getLsbD_extractLsb', BitVec.getLsbD_append]
  interval_cases i <;> simp

@[simp] theorem lowByte_byte : lowByte (a ++ x ++ k) = k := by
  refine BitVec.eq_of_getLsbD_eq fun i hi => ?_
  simp only [lowByte, BitVec.getLsbD_extractLsb', BitVec.getLsbD_append]
  interval_cases i <;> simp

@[simp] theorem d1_addr : d1 (a ++ n) = a := by
  refine BitVec.eq_of_getLsbD_eq fun i hi => ?_
  simp only [d1, BitVec.getLsbD_extractLsb', BitVec.getLsbD_append]
  interval_cases i <;> simp

@[simp] theorem lowAddr_addr : lowAddr (a ++ n) = n := by
  refine BitVec.eq_of_getLsbD_eq fun i hi => ?_
  simp only [lowAddr, BitVec.getLsbD_extractLsb', BitVec.getLsbD_append]
  interval_cases i <;> simp

/-- A word is its four nibbles, the most significant first (R91). -/
theorem word_eq_nibbles : d1 w ++ d2 w ++ d3 w ++ d4 w = w := by
  refine BitVec.eq_of_getLsbD_eq fun i hi => ?_
  simp only [d1, d2, d3, d4, BitVec.getLsbD_extractLsb', BitVec.getLsbD_append]
  interval_cases i <;> simp

/-- A word is its first two nibbles and its low byte. -/
theorem word_eq_byte : d1 w ++ d2 w ++ lowByte w = w := by
  refine BitVec.eq_of_getLsbD_eq fun i hi => ?_
  simp only [d1, d2, lowByte, BitVec.getLsbD_extractLsb', BitVec.getLsbD_append]
  interval_cases i <;> simp

/-- A word is its first nibble and its low 12 bits. -/
theorem word_eq_addr : d1 w ++ lowAddr w = w := by
  refine BitVec.eq_of_getLsbD_eq fun i hi => ?_
  simp only [d1, lowAddr, BitVec.getLsbD_extractLsb', BitVec.getLsbD_append]
  interval_cases i <;> simp

/-- The two bytes of a word, put together again, are the word (R62). -/
@[simp] theorem wordOfBytes_bytes : wordOfBytes (highByte w) (lowByte w) = w := by
  refine BitVec.eq_of_getLsbD_eq fun i hi => ?_
  simp only [wordOfBytes, highByte, lowByte, BitVec.getLsbD_extractLsb', BitVec.getLsbD_append]
  interval_cases i <;> simp

end Sys2Proof
end

