-- ==== Sys2Proof/Laws/Memory.lean ====
section
/-! SUPPORT. The laws of memory: a byte reads as the last value written to it, a write leaves every other byte alone,
and every operation keeps the canonical form. The first two hold of every list, canonical or not. -/

namespace Sys2Proof.Machine

open Sys2Proof

variable (c : Config) (m : Memory) (a b : Nat) (v : Byte)

theorem Memory.read_insert (h : ∀ e ∈ m, e.1 ≠ a) :
    Memory.read c (Memory.insert a v m) b = if b = a then v else Memory.read c m b := by
  induction m with
  | nil => simp [Memory.insert, Memory.read]
  | cons e m ih =>
    have ih := ih fun f hf => h f (List.mem_cons_of_mem _ hf)
    have he : e.1 ≠ a := h e List.mem_cons_self
    by_cases hlt : a < e.1
    · simp [Memory.insert, Memory.read, hlt]
    · simp only [Memory.insert, if_neg hlt, Memory.read, ih]
      split_ifs <;> simp_all

theorem Memory.read_erase_ne (h : b ≠ a) : Memory.read c (Memory.erase a m) b = Memory.read c m b := by
  induction m with
  | nil => rfl
  | cons e m ih =>
    unfold Memory.erase at ih ⊢
    by_cases he : e.1 = a
    · simp [he, Memory.read, ih, h]
    · simp [he, Memory.read, ih]

theorem Memory.read_erase_self : Memory.read c (Memory.erase a m) a = initialByte c a := by
  induction m with
  | nil => rfl
  | cons e m ih =>
    unfold Memory.erase at ih ⊢
    by_cases he : e.1 = a
    · simp [he, ih]
    · simp [he, Memory.read, ih, Ne.symm he]

theorem Memory.mem_erase_ne (e : Host.Cell) (h : e ∈ Memory.erase a m) : e.1 ≠ a := by
  simpa [Memory.erase] using (List.mem_filter.mp h).2

/-- The whole law of one write: of a byte inside memory, the written address reads as `v` and no other changes. -/
theorem Memory.read_write (h : a < 4096) :
    Memory.read c (Memory.write c m a v) b = if b = a then v else Memory.read c m b := by
  unfold Memory.write
  rw [if_pos h]
  split_ifs with hv hb hb
  · rw [hb, Memory.read_erase_self, hv]
  · exact Memory.read_erase_ne c m a b hb
  · rw [Memory.read_insert c _ a b v (Memory.mem_erase_ne m a), if_pos hb]
  · rw [Memory.read_insert c _ a b v (Memory.mem_erase_ne m a), if_neg hb, Memory.read_erase_ne c m a b hb]

theorem Memory.mem_insert (e : Host.Cell) : e ∈ Memory.insert a v m ↔ e = (a, v) ∨ e ∈ m := by
  induction m with
  | nil => simp [Memory.insert]
  | cons f m ih =>
    unfold Memory.insert
    split_ifs <;> simp [ih, or_left_comm]

theorem Memory.insert_pairwise (h : m.Pairwise fun e f => e.1 < f.1) (hne : ∀ e ∈ m, e.1 ≠ a) :
    (Memory.insert a v m).Pairwise fun e f => e.1 < f.1 := by
  induction m with
  | nil => simp [Memory.insert]
  | cons e m ih =>
    obtain ⟨he, hm⟩ := List.pairwise_cons.mp h
    have hea : e.1 ≠ a := hne e List.mem_cons_self
    unfold Memory.insert
    split_ifs with hlt
    · refine List.pairwise_cons.mpr ⟨fun f hf => ?_, h⟩
      rcases List.mem_cons.mp hf with rfl | hf
      · exact hlt
      · exact Nat.lt_trans hlt (he f hf)
    · refine List.pairwise_cons.mpr ⟨fun f hf => ?_, ih hm fun f hf => hne f (List.mem_cons_of_mem _ hf)⟩
      rcases (Memory.mem_insert m a v f).mp hf with rfl | hf
      · show e.1 < a
        omega
      · exact he f hf

/-- A write keeps the canonical form. -/
theorem Memory.write_wf (h : Memory.wf c m) : Memory.wf c (Memory.write c m a v) := by
  have hsub : (Memory.erase a m).Sublist m := List.filter_sublist
  have herase : Memory.wf c (Memory.erase a m) := ⟨h.1.sublist hsub, fun e he => h.2 e (hsub.subset he)⟩
  unfold Memory.write
  split_ifs with ha hv
  · exact herase
  · refine ⟨Memory.insert_pairwise _ a v herase.1 (Memory.mem_erase_ne m a), fun e he => ?_⟩
    rcases (Memory.mem_insert _ a v e).mp he with rfl | he
    · exact ⟨ha, hv⟩
    · exact herase.2 e he
  · exact h

/-- Consecutive writes keep the canonical form. -/
theorem Memory.writeBytes_wf (bs : List Byte) (h : Memory.wf c m) : Memory.wf c (Memory.writeBytes c m a bs) := by
  induction bs generalizing m a with
  | nil => exact h
  | cons v bs ih => exact ih _ _ (Memory.write_wf c m a v h)

/-- The whole law of consecutive writes inside memory: byte `k` of the run reads as the k-th byte written, and every
address outside the run as before. -/
theorem Memory.read_writeBytes (bs : List Byte) (h : a + bs.length ≤ 4096) :
    Memory.read c (Memory.writeBytes c m a bs) b =
      if a ≤ b then bs[b - a]?.getD (Memory.read c m b) else Memory.read c m b := by
  induction bs generalizing m a with
  | nil => simp [Memory.writeBytes]
  | cons v bs ih =>
    simp only [List.length_cons] at h
    rw [Memory.writeBytes, ih _ _ (by omega), Memory.read_write c m a b v (by omega)]
    rcases Nat.lt_trichotomy b a with hb | rfl | hb
    · rw [if_neg (by omega), if_neg (by omega), if_neg (by omega)]
    · simp
    · rw [if_pos (show a + 1 ≤ b by omega), if_pos (show a ≤ b by omega), if_neg (show b ≠ a by omega),
        show b - a = (b - (a + 1)) + 1 by omega, List.getElem?_cons_succ]

/-- Memory right after reset has the canonical form. -/
theorem State.resetWith_memory_wf : Memory.wf (State.resetWith c).config (State.resetWith c).mem :=
  ⟨List.Pairwise.nil, by simp [State.resetWith]⟩

end Sys2Proof.Machine
end

