-- ==== Sys2Proof/Laws/State.lean ====
section
/-! SUPPORT. The fields of State after each plain update, one lemma per field per update, each true by rfl. -/

namespace Sys2Proof.Machine

open Sys2Proof

variable (s : State)

@[simp] theorem State.setReg_V (x : Nibble) (v : Byte) : (s.setReg x v).V = s.V.set x.toNat v (by omega) := rfl
@[simp] theorem State.setReg_I (x : Nibble) (v : Byte) : (s.setReg x v).I = s.I := rfl
@[simp] theorem State.setReg_pc (x : Nibble) (v : Byte) : (s.setReg x v).pc = s.pc := rfl
@[simp] theorem State.setReg_sp (x : Nibble) (v : Byte) : (s.setReg x v).sp = s.sp := rfl
@[simp] theorem State.setReg_stack (x : Nibble) (v : Byte) : (s.setReg x v).stack = s.stack := rfl
@[simp] theorem State.setReg_DT (x : Nibble) (v : Byte) : (s.setReg x v).DT = s.DT := rfl
@[simp] theorem State.setReg_ST (x : Nibble) (v : Byte) : (s.setReg x v).ST = s.ST := rfl
@[simp] theorem State.setReg_disp (x : Nibble) (v : Byte) : (s.setReg x v).disp = s.disp := rfl
@[simp] theorem State.setReg_keys (x : Nibble) (v : Byte) : (s.setReg x v).keys = s.keys := rfl
@[simp] theorem State.setReg_mem (x : Nibble) (v : Byte) : (s.setReg x v).mem = s.mem := rfl
@[simp] theorem State.setReg_status (x : Nibble) (v : Byte) : (s.setReg x v).status = s.status := rfl
@[simp] theorem State.setReg_config (x : Nibble) (v : Byte) : (s.setReg x v).config = s.config := rfl
@[simp] theorem State.setReg_draws (x : Nibble) (v : Byte) : (s.setReg x v).draws = s.draws := rfl
@[simp] theorem State.setReg_requests (x : Nibble) (v : Byte) : (s.setReg x v).requests = s.requests := rfl

@[simp] theorem State.setRegs_V (bs : List Byte) : (s.setRegs bs).V = Vector.ofFn fun k : Fin 16 => bs[k.val]?.getD s.V[k] := rfl
@[simp] theorem State.setRegs_I (bs : List Byte) : (s.setRegs bs).I = s.I := rfl
@[simp] theorem State.setRegs_pc (bs : List Byte) : (s.setRegs bs).pc = s.pc := rfl
@[simp] theorem State.setRegs_sp (bs : List Byte) : (s.setRegs bs).sp = s.sp := rfl
@[simp] theorem State.setRegs_stack (bs : List Byte) : (s.setRegs bs).stack = s.stack := rfl
@[simp] theorem State.setRegs_DT (bs : List Byte) : (s.setRegs bs).DT = s.DT := rfl
@[simp] theorem State.setRegs_ST (bs : List Byte) : (s.setRegs bs).ST = s.ST := rfl
@[simp] theorem State.setRegs_disp (bs : List Byte) : (s.setRegs bs).disp = s.disp := rfl
@[simp] theorem State.setRegs_keys (bs : List Byte) : (s.setRegs bs).keys = s.keys := rfl
@[simp] theorem State.setRegs_mem (bs : List Byte) : (s.setRegs bs).mem = s.mem := rfl
@[simp] theorem State.setRegs_status (bs : List Byte) : (s.setRegs bs).status = s.status := rfl
@[simp] theorem State.setRegs_config (bs : List Byte) : (s.setRegs bs).config = s.config := rfl
@[simp] theorem State.setRegs_draws (bs : List Byte) : (s.setRegs bs).draws = s.draws := rfl
@[simp] theorem State.setRegs_requests (bs : List Byte) : (s.setRegs bs).requests = s.requests := rfl

@[simp] theorem State.setI_V (v : Word) : (s.setI v).V = s.V := rfl
@[simp] theorem State.setI_I (v : Word) : (s.setI v).I = v := rfl
@[simp] theorem State.setI_pc (v : Word) : (s.setI v).pc = s.pc := rfl
@[simp] theorem State.setI_sp (v : Word) : (s.setI v).sp = s.sp := rfl
@[simp] theorem State.setI_stack (v : Word) : (s.setI v).stack = s.stack := rfl
@[simp] theorem State.setI_DT (v : Word) : (s.setI v).DT = s.DT := rfl
@[simp] theorem State.setI_ST (v : Word) : (s.setI v).ST = s.ST := rfl
@[simp] theorem State.setI_disp (v : Word) : (s.setI v).disp = s.disp := rfl
@[simp] theorem State.setI_keys (v : Word) : (s.setI v).keys = s.keys := rfl
@[simp] theorem State.setI_mem (v : Word) : (s.setI v).mem = s.mem := rfl
@[simp] theorem State.setI_status (v : Word) : (s.setI v).status = s.status := rfl
@[simp] theorem State.setI_config (v : Word) : (s.setI v).config = s.config := rfl
@[simp] theorem State.setI_draws (v : Word) : (s.setI v).draws = s.draws := rfl
@[simp] theorem State.setI_requests (v : Word) : (s.setI v).requests = s.requests := rfl

@[simp] theorem State.setPc_V (v : Word) : (s.setPc v).V = s.V := rfl
@[simp] theorem State.setPc_I (v : Word) : (s.setPc v).I = s.I := rfl
@[simp] theorem State.setPc_pc (v : Word) : (s.setPc v).pc = v := rfl
@[simp] theorem State.setPc_sp (v : Word) : (s.setPc v).sp = s.sp := rfl
@[simp] theorem State.setPc_stack (v : Word) : (s.setPc v).stack = s.stack := rfl
@[simp] theorem State.setPc_DT (v : Word) : (s.setPc v).DT = s.DT := rfl
@[simp] theorem State.setPc_ST (v : Word) : (s.setPc v).ST = s.ST := rfl
@[simp] theorem State.setPc_disp (v : Word) : (s.setPc v).disp = s.disp := rfl
@[simp] theorem State.setPc_keys (v : Word) : (s.setPc v).keys = s.keys := rfl
@[simp] theorem State.setPc_mem (v : Word) : (s.setPc v).mem = s.mem := rfl
@[simp] theorem State.setPc_status (v : Word) : (s.setPc v).status = s.status := rfl
@[simp] theorem State.setPc_config (v : Word) : (s.setPc v).config = s.config := rfl
@[simp] theorem State.setPc_draws (v : Word) : (s.setPc v).draws = s.draws := rfl
@[simp] theorem State.setPc_requests (v : Word) : (s.setPc v).requests = s.requests := rfl

@[simp] theorem State.advance_V : (s.advance).V = s.V := rfl
@[simp] theorem State.advance_I : (s.advance).I = s.I := rfl
@[simp] theorem State.advance_pc : (s.advance).pc = s.pc + 2 := rfl
@[simp] theorem State.advance_sp : (s.advance).sp = s.sp := rfl
@[simp] theorem State.advance_stack : (s.advance).stack = s.stack := rfl
@[simp] theorem State.advance_DT : (s.advance).DT = s.DT := rfl
@[simp] theorem State.advance_ST : (s.advance).ST = s.ST := rfl
@[simp] theorem State.advance_disp : (s.advance).disp = s.disp := rfl
@[simp] theorem State.advance_keys : (s.advance).keys = s.keys := rfl
@[simp] theorem State.advance_mem : (s.advance).mem = s.mem := rfl
@[simp] theorem State.advance_status : (s.advance).status = s.status := rfl
@[simp] theorem State.advance_config : (s.advance).config = s.config := rfl
@[simp] theorem State.advance_draws : (s.advance).draws = s.draws := rfl
@[simp] theorem State.advance_requests : (s.advance).requests = s.requests := rfl

@[simp] theorem State.setDT_V (v : Byte) : (s.setDT v).V = s.V := rfl
@[simp] theorem State.setDT_I (v : Byte) : (s.setDT v).I = s.I := rfl
@[simp] theorem State.setDT_pc (v : Byte) : (s.setDT v).pc = s.pc := rfl
@[simp] theorem State.setDT_sp (v : Byte) : (s.setDT v).sp = s.sp := rfl
@[simp] theorem State.setDT_stack (v : Byte) : (s.setDT v).stack = s.stack := rfl
@[simp] theorem State.setDT_DT (v : Byte) : (s.setDT v).DT = v := rfl
@[simp] theorem State.setDT_ST (v : Byte) : (s.setDT v).ST = s.ST := rfl
@[simp] theorem State.setDT_disp (v : Byte) : (s.setDT v).disp = s.disp := rfl
@[simp] theorem State.setDT_keys (v : Byte) : (s.setDT v).keys = s.keys := rfl
@[simp] theorem State.setDT_mem (v : Byte) : (s.setDT v).mem = s.mem := rfl
@[simp] theorem State.setDT_status (v : Byte) : (s.setDT v).status = s.status := rfl
@[simp] theorem State.setDT_config (v : Byte) : (s.setDT v).config = s.config := rfl
@[simp] theorem State.setDT_draws (v : Byte) : (s.setDT v).draws = s.draws := rfl
@[simp] theorem State.setDT_requests (v : Byte) : (s.setDT v).requests = s.requests := rfl

@[simp] theorem State.setST_V (v : Byte) : (s.setST v).V = s.V := rfl
@[simp] theorem State.setST_I (v : Byte) : (s.setST v).I = s.I := rfl
@[simp] theorem State.setST_pc (v : Byte) : (s.setST v).pc = s.pc := rfl
@[simp] theorem State.setST_sp (v : Byte) : (s.setST v).sp = s.sp := rfl
@[simp] theorem State.setST_stack (v : Byte) : (s.setST v).stack = s.stack := rfl
@[simp] theorem State.setST_DT (v : Byte) : (s.setST v).DT = s.DT := rfl
@[simp] theorem State.setST_ST (v : Byte) : (s.setST v).ST = v := rfl
@[simp] theorem State.setST_disp (v : Byte) : (s.setST v).disp = s.disp := rfl
@[simp] theorem State.setST_keys (v : Byte) : (s.setST v).keys = s.keys := rfl
@[simp] theorem State.setST_mem (v : Byte) : (s.setST v).mem = s.mem := rfl
@[simp] theorem State.setST_status (v : Byte) : (s.setST v).status = s.status := rfl
@[simp] theorem State.setST_config (v : Byte) : (s.setST v).config = s.config := rfl
@[simp] theorem State.setST_draws (v : Byte) : (s.setST v).draws = s.draws := rfl
@[simp] theorem State.setST_requests (v : Byte) : (s.setST v).requests = s.requests := rfl

@[simp] theorem State.setDisp_V (d : Vector (BitVec 64) 32) : (s.setDisp d).V = s.V := rfl
@[simp] theorem State.setDisp_I (d : Vector (BitVec 64) 32) : (s.setDisp d).I = s.I := rfl
@[simp] theorem State.setDisp_pc (d : Vector (BitVec 64) 32) : (s.setDisp d).pc = s.pc := rfl
@[simp] theorem State.setDisp_sp (d : Vector (BitVec 64) 32) : (s.setDisp d).sp = s.sp := rfl
@[simp] theorem State.setDisp_stack (d : Vector (BitVec 64) 32) : (s.setDisp d).stack = s.stack := rfl
@[simp] theorem State.setDisp_DT (d : Vector (BitVec 64) 32) : (s.setDisp d).DT = s.DT := rfl
@[simp] theorem State.setDisp_ST (d : Vector (BitVec 64) 32) : (s.setDisp d).ST = s.ST := rfl
@[simp] theorem State.setDisp_disp (d : Vector (BitVec 64) 32) : (s.setDisp d).disp = d := rfl
@[simp] theorem State.setDisp_keys (d : Vector (BitVec 64) 32) : (s.setDisp d).keys = s.keys := rfl
@[simp] theorem State.setDisp_mem (d : Vector (BitVec 64) 32) : (s.setDisp d).mem = s.mem := rfl
@[simp] theorem State.setDisp_status (d : Vector (BitVec 64) 32) : (s.setDisp d).status = s.status := rfl
@[simp] theorem State.setDisp_config (d : Vector (BitVec 64) 32) : (s.setDisp d).config = s.config := rfl
@[simp] theorem State.setDisp_draws (d : Vector (BitVec 64) 32) : (s.setDisp d).draws = s.draws := rfl
@[simp] theorem State.setDisp_requests (d : Vector (BitVec 64) 32) : (s.setDisp d).requests = s.requests := rfl

@[simp] theorem State.setKey_V (k : Fin 16) (p : Bool) : (s.setKey k p).V = s.V := rfl
@[simp] theorem State.setKey_I (k : Fin 16) (p : Bool) : (s.setKey k p).I = s.I := rfl
@[simp] theorem State.setKey_pc (k : Fin 16) (p : Bool) : (s.setKey k p).pc = s.pc := rfl
@[simp] theorem State.setKey_sp (k : Fin 16) (p : Bool) : (s.setKey k p).sp = s.sp := rfl
@[simp] theorem State.setKey_stack (k : Fin 16) (p : Bool) : (s.setKey k p).stack = s.stack := rfl
@[simp] theorem State.setKey_DT (k : Fin 16) (p : Bool) : (s.setKey k p).DT = s.DT := rfl
@[simp] theorem State.setKey_ST (k : Fin 16) (p : Bool) : (s.setKey k p).ST = s.ST := rfl
@[simp] theorem State.setKey_disp (k : Fin 16) (p : Bool) : (s.setKey k p).disp = s.disp := rfl
@[simp] theorem State.setKey_keys (k : Fin 16) (p : Bool) : (s.setKey k p).keys = s.keys.set k p := rfl
@[simp] theorem State.setKey_mem (k : Fin 16) (p : Bool) : (s.setKey k p).mem = s.mem := rfl
@[simp] theorem State.setKey_status (k : Fin 16) (p : Bool) : (s.setKey k p).status = s.status := rfl
@[simp] theorem State.setKey_config (k : Fin 16) (p : Bool) : (s.setKey k p).config = s.config := rfl
@[simp] theorem State.setKey_draws (k : Fin 16) (p : Bool) : (s.setKey k p).draws = s.draws := rfl
@[simp] theorem State.setKey_requests (k : Fin 16) (p : Bool) : (s.setKey k p).requests = s.requests := rfl

@[simp] theorem State.consumeDraw_V : (s.consumeDraw).V = s.V := rfl
@[simp] theorem State.consumeDraw_I : (s.consumeDraw).I = s.I := rfl
@[simp] theorem State.consumeDraw_pc : (s.consumeDraw).pc = s.pc := rfl
@[simp] theorem State.consumeDraw_sp : (s.consumeDraw).sp = s.sp := rfl
@[simp] theorem State.consumeDraw_stack : (s.consumeDraw).stack = s.stack := rfl
@[simp] theorem State.consumeDraw_DT : (s.consumeDraw).DT = s.DT := rfl
@[simp] theorem State.consumeDraw_ST : (s.consumeDraw).ST = s.ST := rfl
@[simp] theorem State.consumeDraw_disp : (s.consumeDraw).disp = s.disp := rfl
@[simp] theorem State.consumeDraw_keys : (s.consumeDraw).keys = s.keys := rfl
@[simp] theorem State.consumeDraw_mem : (s.consumeDraw).mem = s.mem := rfl
@[simp] theorem State.consumeDraw_status : (s.consumeDraw).status = s.status := rfl
@[simp] theorem State.consumeDraw_config : (s.consumeDraw).config = s.config := rfl
@[simp] theorem State.consumeDraw_draws : (s.consumeDraw).draws = s.draws + 1 := rfl
@[simp] theorem State.consumeDraw_requests : (s.consumeDraw).requests = s.requests := rfl

@[simp] theorem State.setStatus_V (st : Status) : (s.setStatus st).V = s.V := rfl
@[simp] theorem State.setStatus_I (st : Status) : (s.setStatus st).I = s.I := rfl
@[simp] theorem State.setStatus_pc (st : Status) : (s.setStatus st).pc = s.pc := rfl
@[simp] theorem State.setStatus_sp (st : Status) : (s.setStatus st).sp = s.sp := rfl
@[simp] theorem State.setStatus_stack (st : Status) : (s.setStatus st).stack = s.stack := rfl
@[simp] theorem State.setStatus_DT (st : Status) : (s.setStatus st).DT = s.DT := rfl
@[simp] theorem State.setStatus_ST (st : Status) : (s.setStatus st).ST = s.ST := rfl
@[simp] theorem State.setStatus_disp (st : Status) : (s.setStatus st).disp = s.disp := rfl
@[simp] theorem State.setStatus_keys (st : Status) : (s.setStatus st).keys = s.keys := rfl
@[simp] theorem State.setStatus_mem (st : Status) : (s.setStatus st).mem = s.mem := rfl
@[simp] theorem State.setStatus_status (st : Status) : (s.setStatus st).status = st := rfl
@[simp] theorem State.setStatus_config (st : Status) : (s.setStatus st).config = s.config := rfl
@[simp] theorem State.setStatus_draws (st : Status) : (s.setStatus st).draws = s.draws := rfl
@[simp] theorem State.setStatus_requests (st : Status) : (s.setStatus st).requests = s.requests := rfl

@[simp] theorem State.writeBytes_V (a : Nat) (bs : List Byte) : (s.writeBytes a bs).V = s.V := rfl
@[simp] theorem State.writeBytes_I (a : Nat) (bs : List Byte) : (s.writeBytes a bs).I = s.I := rfl
@[simp] theorem State.writeBytes_pc (a : Nat) (bs : List Byte) : (s.writeBytes a bs).pc = s.pc := rfl
@[simp] theorem State.writeBytes_sp (a : Nat) (bs : List Byte) : (s.writeBytes a bs).sp = s.sp := rfl
@[simp] theorem State.writeBytes_stack (a : Nat) (bs : List Byte) : (s.writeBytes a bs).stack = s.stack := rfl
@[simp] theorem State.writeBytes_DT (a : Nat) (bs : List Byte) : (s.writeBytes a bs).DT = s.DT := rfl
@[simp] theorem State.writeBytes_ST (a : Nat) (bs : List Byte) : (s.writeBytes a bs).ST = s.ST := rfl
@[simp] theorem State.writeBytes_disp (a : Nat) (bs : List Byte) : (s.writeBytes a bs).disp = s.disp := rfl
@[simp] theorem State.writeBytes_keys (a : Nat) (bs : List Byte) : (s.writeBytes a bs).keys = s.keys := rfl
@[simp] theorem State.writeBytes_mem (a : Nat) (bs : List Byte) : (s.writeBytes a bs).mem = Memory.writeBytes s.config s.mem a bs := rfl
@[simp] theorem State.writeBytes_status (a : Nat) (bs : List Byte) : (s.writeBytes a bs).status = s.status := rfl
@[simp] theorem State.writeBytes_config (a : Nat) (bs : List Byte) : (s.writeBytes a bs).config = s.config := rfl
@[simp] theorem State.writeBytes_draws (a : Nat) (bs : List Byte) : (s.writeBytes a bs).draws = s.draws := rfl
@[simp] theorem State.writeBytes_requests (a : Nat) (bs : List Byte) : (s.writeBytes a bs).requests = s.requests := rfl

end Sys2Proof.Machine
end

