-- ==== Sys2Proof/Laws/Ops.lean ====
section
/-! SUPPORT. What each shared operation can do, said once: the provers cite these lemmas instead of unfolding. -/

namespace Sys2Proof.Machine

open Sys2Proof

variable (s t : State)

/-! Registers -/

/-- A register write writes its own register and no other. -/
@[simp] theorem State.setReg_reg (x k : Nibble) (v : Byte) :
    (s.setReg x v).reg k = if k = x then v else s.reg k := by
  unfold State.reg State.setReg
  simp only [Vector.getElem_set, BitVec.toNat_inj]
  split_ifs <;> simp_all

@[simp] theorem State.setFlag_eq (f : Byte) : s.setFlag f = s.setReg 0xF#4 f := rfl

/-- The write-back with a flag: VF is the flag, `V[x]` the result unless it is VF, no other register changes. -/
theorem State.setRegFlag_reg (x k : Nibble) (r f : Byte) :
    (s.setRegFlag x r f).reg k = if k = 0xF#4 then f else if k = x then r else s.reg k := by
  simp [State.setRegFlag]

theorem State.setRegFlag_eq (x : Nibble) (r f : Byte) :
    s.setRegFlag x r f = (s.setReg x r).setReg 0xF#4 f := rfl

/-- Register `k` after a multi-register write: the k-th byte if there is one, else as before. -/
@[simp] theorem State.setRegs_reg (bs : List Byte) (k : Nibble) :
    (s.setRegs bs).reg k = bs[k.toNat]?.getD (s.reg k) := by
  simp [State.reg, State.setRegs]

/-- A register depends on the register file alone. -/
theorem State.reg_congr (h : t.V = s.V) (k : Nibble) : t.reg k = s.reg k := by simp [State.reg, h]

@[simp] theorem State.regsUpTo_length (x : Nibble) : (s.regsUpTo x).length = x.toNat + 1 := by
  simp only [State.regsUpTo, List.length_take, Vector.length_toList]
  omega

/-- The k-th byte Fx55 stores is `V[k]`. -/
theorem State.regsUpTo_getElem? (x k : Nibble) (h : k.toNat ≤ x.toNat) :
    (s.regsUpTo x)[k.toNat]? = some (s.reg k) := by
  simp [State.regsUpTo, State.reg, show k.toNat < x.toNat + 1 by omega]

/-! Memory -/

/-- A byte depends on memory and the build's glyph table alone. -/
theorem State.readByte_congr (hm : t.mem = s.mem) (hc : t.config = s.config) (a : Nat) :
    t.readByte a = s.readByte a := by simp [State.readByte, hm, hc]

/-- A byte after consecutive writes inside memory. -/
theorem State.writeBytes_readByte (a b : Nat) (bs : List Byte) (h : a + bs.length ≤ 4096) :
    (s.writeBytes a bs).readByte b = if a ≤ b then bs[b - a]?.getD (s.readByte b) else s.readByte b :=
  Memory.read_writeBytes s.config s.mem a b bs h

@[simp] theorem State.readBytes_length (a n : Nat) : (s.readBytes a n).length = n := by simp [State.readBytes]

theorem State.readBytes_getElem? (a n k : Nat) (h : k < n) :
    (s.readBytes a n)[k]? = some (s.readByte (a + k)) := by
  simp [State.readBytes, h]

@[simp] theorem rangeOk_iff (a k : Nat) : rangeOk a k = true ↔ a + k ≤ 4096 := by simp [rangeOk]

/-! The call stack -/

/-- Push answers exactly when the stack is not full, and then writes the entry at `sp` and counts it (R29). -/
theorem State.push_some (v : Word) (h : s.push v = some t) :
    ∃ hsp : s.sp.val < 16, t = { s with stack := s.stack.set s.sp.val v, sp := ⟨s.sp.val + 1, by omega⟩ } := by
  unfold State.push at h
  split at h
  · exact ⟨‹_›, (Option.some.inj h).symm⟩
  · cases h

theorem State.push_none (v : Word) : s.push v = none ↔ s.sp.val = 16 := by
  unfold State.push
  split
  · simp; omega
  · simp; omega

/-- Pop answers exactly when the stack is not empty, and then gives the entry below `sp` and uncounts it (R29). -/
theorem State.pop_some (v : Word) (h : s.pop = some (v, t)) :
    ∃ hsp : 0 < s.sp.val,
      v = s.stack[s.sp.val - 1]'(by omega) ∧ t = { s with sp := ⟨s.sp.val - 1, by omega⟩ } := by
  unfold State.pop at h
  split at h
  · obtain ⟨rfl, rfl⟩ := Prod.mk.inj (Option.some.inj h)
    exact ⟨‹_›, rfl, rfl⟩
  · cases h

theorem State.pop_none : s.pop = none ↔ s.sp.val = 0 := by
  unfold State.pop
  split
  · simp; omega
  · simp; omega

/-! The ends of a step -/

@[simp] theorem State.commit_eq : s.commit = .next (s.setStatus Status.success) := rfl

@[simp] theorem State.raise_eq (code : Code) (word : Word) :
    s.raise code word = .next (s.setStatus ⟨code, s.pc, word⟩) := rfl

/-- A skip changes `pc` alone: by 4 when the condition holds, else by 2 (R26). -/
theorem State.skipIf_eq (cond : Bool) :
    s.skipIf cond = s.setPc (if cond then s.pc + 2 + 2 else s.pc + 2) := by
  cases cond <;> rfl

/-! Keys, timers, sprites -/

theorem keyIndex_eq_some (v : Byte) (k : Fin 16) : keyIndex v = some k ↔ v.toNat = k.val := by
  unfold keyIndex
  split
  · simp [Fin.ext_iff]
  · have := k.isLt
    simp; omega

theorem keyIndex_eq_none (v : Byte) : keyIndex v = none ↔ 16 ≤ v.toNat := by
  unfold keyIndex
  split
  · simp; omega
  · simp; omega

/-- The key Fx0A takes is pressed, and no lower one is (R234). -/
theorem State.firstKey_some (k : Fin 16) (h : s.firstKey = some k) :
    s.keys[k] = true ∧ ∀ j : Fin 16, j < k → s.keys[j] = false := by
  obtain ⟨hk, i, hi, hik, hlow⟩ := List.find?_eq_some_iff_getElem.mp h
  refine ⟨hk, fun j hj => ?_⟩
  have hik : i = k.val := by simpa [Fin.ext_iff] using hik
  have hji : j.val < i := hik ▸ hj
  simpa using hlow j.val hji

theorem State.firstKey_none (h : s.firstKey = none) (k : Fin 16) : s.keys[k] = false := by
  simpa using List.find?_eq_none.mp h k (List.mem_finRange k)

theorem toggle_pixel (c : Canvas) (px qx : Fin 64) (py qy : Fin 32) :
    (toggle c px py).disp[qy].getLsbD qx.val = (c.disp[qy].getLsbD qx.val ^^ decide (qx = px ∧ qy = py)) := by
  by_cases hy : qy = py
  · subst hy
    have hb : (1#64 <<< px.val).getLsbD qx.val = decide (qx = px) := by
      rw [← BitVec.twoPow_eq, BitVec.getLsbD_twoPow]
      have := px.isLt
      by_cases h : px.val = qx.val
      · simp [Fin.ext h]
      · have hne : ¬qx = px := fun e => h (congrArg Fin.val e).symm
        simp [h, hne]
    simp only [toggle, Fin.getElem_fin, Vector.getElem_set_self, BitVec.getLsbD_xor, hb, and_true]
  · have hne : py.val ≠ qy.val := fun h => hy (Fin.ext h.symm)
    simp [toggle, hy, hne]

/-! The step -/

/-- Fetch gives the two bytes at `pc`, the first high, when both are inside memory, and else nothing (R121). -/
theorem State.fetch_eq :
    s.fetch = if s.pc.toNat ≤ 4094 then
      some (wordOfBytes (s.readByte s.pc.toNat) (s.readByte (s.pc.toNat + 1))) else none := by
  unfold State.fetch rangeOk
  by_cases h : s.pc.toNat ≤ 4094
  · rw [if_pos h, if_pos]; simp; omega
  · rw [if_neg h, if_neg]; simp; omega

/-- All a STEP_INSTR can be: a failed fetch, an illegal word, or the decoded instruction (R124, R127). -/
theorem stepInstr_cases :
    (s.fetch = none ∧ stepInstr s = s.raise .outOfBoundsAccess 0) ∨
    (∃ w, s.fetch = some w ∧ decodeWord w = none ∧ stepInstr s = s.raise .unimplementedInstruction w) ∨
    (∃ w i, s.fetch = some w ∧ decodeWord w = some i ∧ stepInstr s = exec i s) := by
  unfold stepInstr
  cases hf : s.fetch with
  | none => simp
  | some w =>
    cases hd : decodeWord w with
    | none => simp [hd]
    | some i => simp [hd]

end Sys2Proof.Machine
end

