-- ==== Sys2Proof/Laws/PerInstr.lean ====
section
/-! SUPPORT. What is said of every instruction as syntax, one lemma per constructor: its word lies in the row of the
opcode map that bears its mnemonic (30_encoding.md R94). -/

/-- The word of `i` matches the row of R94 that bears the mnemonic of `i`. -/
def Sys2Proof.Laws.EncodingInOpcodeMap.Statement (i : Sys2Proof.Instr) : Prop :=
  ∃ r ∈ Sys2Proof.opRows, r.mnemonic = i.mnemonic ∧ r.matches (Sys2Proof.encode i) = true

namespace Sys2Proof.Laws.EncodingInOpcodeMap

open Sys2Proof

/-! The masks of R94 on a word put together from its fields. -/

theorem mask_addr (a : Nibble) (n : Addr) : (a ++ n : Word) &&& 0xF000#16 = a ++ 0#12 := by
  refine BitVec.eq_of_getLsbD_eq fun i hi => ?_
  simp only [BitVec.getLsbD_and, BitVec.getLsbD_append]
  interval_cases i <;> simp

theorem mask_byte (a x : Nibble) (nn : Byte) : (a ++ x ++ nn : Word) &&& 0xF000#16 = a ++ 0#12 := by
  refine BitVec.eq_of_getLsbD_eq fun i hi => ?_
  simp only [BitVec.getLsbD_and, BitVec.getLsbD_append]
  interval_cases i <;> simp

theorem mask_count (a x y n : Nibble) : (a ++ x ++ y ++ n : Word) &&& 0xF000#16 = a ++ 0#12 := by
  refine BitVec.eq_of_getLsbD_eq fun i hi => ?_
  simp only [BitVec.getLsbD_and, BitVec.getLsbD_append]
  interval_cases i <;> simp

theorem mask_regs (a x y k : Nibble) : (a ++ x ++ y ++ k : Word) &&& 0xF00F#16 = a ++ 0#8 ++ k := by
  refine BitVec.eq_of_getLsbD_eq fun i hi => ?_
  simp only [BitVec.getLsbD_and, BitVec.getLsbD_append]
  interval_cases i <;> simp

theorem mask_sub (a x : Nibble) (k : Byte) : (a ++ x ++ k : Word) &&& 0xF0FF#16 = a ++ 0#4 ++ k := by
  refine BitVec.eq_of_getLsbD_eq fun i hi => ?_
  simp only [BitVec.getLsbD_and, BitVec.getLsbD_append]
  interval_cases i <;> simp

theorem nop : Statement (.nop) :=
  ⟨⟨"NOP", 0x0000, 0xFFFF⟩, by decide, rfl, by decide⟩

theorem cls : Statement (.cls) :=
  ⟨⟨"CLS", 0x00E0, 0xFFFF⟩, by decide, rfl, by decide⟩

theorem ret : Statement (.ret) :=
  ⟨⟨"RET", 0x00EE, 0xFFFF⟩, by decide, rfl, by decide⟩

theorem jp (nnn : Addr) : Statement (.jp nnn) :=
  ⟨⟨"JP", 0x1000, 0xF000⟩, by decide, rfl, by simp [OpRow.matches, encode, mask_addr]⟩

theorem call (nnn : Addr) : Statement (.call nnn) :=
  ⟨⟨"CALL", 0x2000, 0xF000⟩, by decide, rfl, by simp [OpRow.matches, encode, mask_addr]⟩

theorem seVB (x : Nibble) (nn : Byte) : Statement (.seVB x nn) :=
  ⟨⟨"SE_VB", 0x3000, 0xF000⟩, by decide, rfl, by simp [OpRow.matches, encode, mask_byte]⟩

theorem sneVB (x : Nibble) (nn : Byte) : Statement (.sneVB x nn) :=
  ⟨⟨"SNE_VB", 0x4000, 0xF000⟩, by decide, rfl, by simp [OpRow.matches, encode, mask_byte]⟩

theorem seVV (x y : Nibble) : Statement (.seVV x y) :=
  ⟨⟨"SE_VV", 0x5000, 0xF00F⟩, by decide, rfl, by simp [OpRow.matches, encode, mask_regs]⟩

theorem ldVB (x : Nibble) (nn : Byte) : Statement (.ldVB x nn) :=
  ⟨⟨"LD_VB", 0x6000, 0xF000⟩, by decide, rfl, by simp [OpRow.matches, encode, mask_byte]⟩

theorem addVB (x : Nibble) (nn : Byte) : Statement (.addVB x nn) :=
  ⟨⟨"ADD_VB", 0x7000, 0xF000⟩, by decide, rfl, by simp [OpRow.matches, encode, mask_byte]⟩

theorem ldVV (x y : Nibble) : Statement (.ldVV x y) :=
  ⟨⟨"LD_VV", 0x8000, 0xF00F⟩, by decide, rfl, by simp [OpRow.matches, encode, mask_regs]⟩

theorem or (x y : Nibble) : Statement (.or x y) :=
  ⟨⟨"OR", 0x8001, 0xF00F⟩, by decide, rfl, by simp [OpRow.matches, encode, mask_regs]⟩

theorem and (x y : Nibble) : Statement (.and x y) :=
  ⟨⟨"AND", 0x8002, 0xF00F⟩, by decide, rfl, by simp [OpRow.matches, encode, mask_regs]⟩

theorem xor (x y : Nibble) : Statement (.xor x y) :=
  ⟨⟨"XOR", 0x8003, 0xF00F⟩, by decide, rfl, by simp [OpRow.matches, encode, mask_regs]⟩

theorem addVV (x y : Nibble) : Statement (.addVV x y) :=
  ⟨⟨"ADD_VV", 0x8004, 0xF00F⟩, by decide, rfl, by simp [OpRow.matches, encode, mask_regs]⟩

theorem sub (x y : Nibble) : Statement (.sub x y) :=
  ⟨⟨"SUB", 0x8005, 0xF00F⟩, by decide, rfl, by simp [OpRow.matches, encode, mask_regs]⟩

theorem shr (x y : Nibble) : Statement (.shr x y) :=
  ⟨⟨"SHR", 0x8006, 0xF00F⟩, by decide, rfl, by simp [OpRow.matches, encode, mask_regs]⟩

theorem subn (x y : Nibble) : Statement (.subn x y) :=
  ⟨⟨"SUBN", 0x8007, 0xF00F⟩, by decide, rfl, by simp [OpRow.matches, encode, mask_regs]⟩

theorem shl (x y : Nibble) : Statement (.shl x y) :=
  ⟨⟨"SHL", 0x800E, 0xF00F⟩, by decide, rfl, by simp [OpRow.matches, encode, mask_regs]⟩

theorem sneVV (x y : Nibble) : Statement (.sneVV x y) :=
  ⟨⟨"SNE_VV", 0x9000, 0xF00F⟩, by decide, rfl, by simp [OpRow.matches, encode, mask_regs]⟩

theorem ldI (nnn : Addr) : Statement (.ldI nnn) :=
  ⟨⟨"LD_I", 0xA000, 0xF000⟩, by decide, rfl, by simp [OpRow.matches, encode, mask_addr]⟩

theorem jpV0 (nnn : Addr) : Statement (.jpV0 nnn) :=
  ⟨⟨"JP_V0", 0xB000, 0xF000⟩, by decide, rfl, by simp [OpRow.matches, encode, mask_addr]⟩

theorem rnd (x : Nibble) (nn : Byte) : Statement (.rnd x nn) :=
  ⟨⟨"RND", 0xC000, 0xF000⟩, by decide, rfl, by simp [OpRow.matches, encode, mask_byte]⟩

theorem drw (x y n : Nibble) : Statement (.drw x y n) :=
  ⟨⟨"DRW", 0xD000, 0xF000⟩, by decide, rfl, by simp [OpRow.matches, encode, mask_count]⟩

theorem skp (x : Nibble) : Statement (.skp x) :=
  ⟨⟨"SKP", 0xE09E, 0xF0FF⟩, by decide, rfl, by simp [OpRow.matches, encode, mask_sub]⟩

theorem sknp (x : Nibble) : Statement (.sknp x) :=
  ⟨⟨"SKNP", 0xE0A1, 0xF0FF⟩, by decide, rfl, by simp [OpRow.matches, encode, mask_sub]⟩

theorem ldVDT (x : Nibble) : Statement (.ldVDT x) :=
  ⟨⟨"LD_V_DT", 0xF007, 0xF0FF⟩, by decide, rfl, by simp [OpRow.matches, encode, mask_sub]⟩

theorem ldVK (x : Nibble) : Statement (.ldVK x) :=
  ⟨⟨"LD_V_K", 0xF00A, 0xF0FF⟩, by decide, rfl, by simp [OpRow.matches, encode, mask_sub]⟩

theorem ldDTV (x : Nibble) : Statement (.ldDTV x) :=
  ⟨⟨"LD_DT_V", 0xF015, 0xF0FF⟩, by decide, rfl, by simp [OpRow.matches, encode, mask_sub]⟩

theorem ldSTV (x : Nibble) : Statement (.ldSTV x) :=
  ⟨⟨"LD_ST_V", 0xF018, 0xF0FF⟩, by decide, rfl, by simp [OpRow.matches, encode, mask_sub]⟩

theorem addIV (x : Nibble) : Statement (.addIV x) :=
  ⟨⟨"ADD_I_V", 0xF01E, 0xF0FF⟩, by decide, rfl, by simp [OpRow.matches, encode, mask_sub]⟩

theorem ldFV (x : Nibble) : Statement (.ldFV x) :=
  ⟨⟨"LD_F_V", 0xF029, 0xF0FF⟩, by decide, rfl, by simp [OpRow.matches, encode, mask_sub]⟩

theorem ldBV (x : Nibble) : Statement (.ldBV x) :=
  ⟨⟨"LD_B_V", 0xF033, 0xF0FF⟩, by decide, rfl, by simp [OpRow.matches, encode, mask_sub]⟩

theorem ldMemV (x : Nibble) : Statement (.ldMemV x) :=
  ⟨⟨"LD_MEM_V", 0xF055, 0xF0FF⟩, by decide, rfl, by simp [OpRow.matches, encode, mask_sub]⟩

theorem ldVMem (x : Nibble) : Statement (.ldVMem x) :=
  ⟨⟨"LD_V_MEM", 0xF065, 0xF0FF⟩, by decide, rfl, by simp [OpRow.matches, encode, mask_sub]⟩

end Sys2Proof.Laws.EncodingInOpcodeMap
end

