-- ==== Sys2Proof/Tests/Slice0.lean ====
section
/-! SUPPORT. The model's own tests. Expected results are the vectors of spec/95_test_vectors.md (their number stands
in each docstring) or are counted by hand from the rule named. Each runs one step. -/

namespace Sys2Proof.Tests

open Sys2Proof Sys2Proof.Machine Sys2Proof.Safety

/-- The outcome is a next state that meets `p`. -/
def yields (o : Host.Outcome State Fault Refusal) (p : State → Bool) : Bool :=
  match o with
  | .next t => p t
  | _ => false

theorem exists_next {o : Host.Outcome State Fault Refusal} {p : State → Bool} (h : yields o p = true) :
    ∃ t, o = .next t ∧ p t = true := by
  cases o with
  | next t => exact ⟨t, rfl, h⟩
  | fault f => cases h
  | refused r => cases h

/-- One step of the state with the word placed at its `pc`. -/
def run (w : Word) (s : State) : Host.Outcome State Fault Refusal := step (s.placeWord w)

/-- The start state of the vectors: reset. -/
def s0 : State := State.reset

/-- `s0` with `V[x] = v`. -/
def s1 (x : Nibble) (v : Byte) : State := s0.setReg x v

/-- `s0` with two registers set. -/
def s2 (x : Nibble) (v : Byte) (y : Nibble) (w : Byte) : State := (s0.setReg x v).setReg y w

/-- `s0` with `n` stack entries in use, each 0x346. -/
def withStack (n : Fin 17) : State := { s0 with sp := n, stack := Vector.replicate 16 0x346 }

/-- `s0` with the other polarity of 5xy0. -/
def otherPolarity (s : State) : State := { s with config := { s.config with skip5OnEqual := true } }

/-- STATUS is OK and `pc` as given. -/
def okAt (pc : Word) (t : State) : Bool := t.status = ⟨.ok, 0, 0⟩ && t.pc = pc

/-- STATUS reports the code with `pc` and word, and `pc` has stayed. -/
def failed (code : Code) (pc word : Word) (t : State) : Bool := t.status = ⟨code, pc, word⟩ && t.pc = pc

/-! Well-formedness: an ill-formed term for each check -/

/-- F4 to F13: an illegal word of each leading nibble that has any. -/
theorem test_illegal_words_refused :
    [0x0123, 0x00E1, 0x5121, 0x9121, 0x8008, 0x800A, 0x800F, 0xE000, 0xF000, 0xFFFF].all
      (fun w : Word => !legalWord w) = true := by decide

/-- R71: 3584 bytes fit and 3585 do not (H2, H3). -/
theorem test_image_bound :
    imageFits (List.replicate 3584 0) = true ∧ imageFits (List.replicate 3585 0) = false := by
  simp only [imageFits, List.length_replicate]
  decide

/-- R69: the default glyphs meet both constraints; a wrong first byte, or a low nibble that is not 0, is refused. -/
theorem test_glyph_table_check :
    Config.default.wf = true ∧
    (Config.mk false (Config.defaultGlyphs.set 0 0x90)).wf = false ∧
    (Config.mk false (Config.defaultGlyphs.set 79 0x81)).wf = false := by decide

/-! Decoding: one word of each row, written out from R94's pattern with each field a value of its own -/

theorem test_decode_control :
    decodeWord 0b0000000000000000 = some .nop ∧ decodeWord 0b0000000011101110 = some .ret ∧
    decodeWord 0b0001101010111100 = some (.jp 0xABC) ∧ decodeWord 0b0010101010111100 = some (.call 0xABC) ∧
    decodeWord 0b0011101001000010 = some (.seVB 0xA 0x42) ∧
    decodeWord 0b0100101001000010 = some (.sneVB 0xA 0x42) ∧
    decodeWord 0b0101000100100000 = some (.seVV 0x1 0x2) ∧
    decodeWord 0b1001000100100000 = some (.sneVV 0x1 0x2) ∧
    decodeWord 0b1011001100000000 = some (.jpV0 0x300) := by decide

theorem test_decode_alu :
    decodeWord 0b0110111100010010 = some (.ldVB 0xF 0x12) ∧
    decodeWord 0b0111001000000011 = some (.addVB 0x2 0x03) ∧
    decodeWord 0b1000000100100000 = some (.ldVV 0x1 0x2) ∧ decodeWord 0b1000000100100001 = some (.or 0x1 0x2) ∧
    decodeWord 0b1000000100100010 = some (.and 0x1 0x2) ∧ decodeWord 0b1000000100100011 = some (.xor 0x1 0x2) ∧
    decodeWord 0b1000000100100100 = some (.addVV 0x1 0x2) ∧ decodeWord 0b1000000100100101 = some (.sub 0x1 0x2) ∧
    decodeWord 0b1000000100100110 = some (.shr 0x1 0x2) ∧ decodeWord 0b1000000100100111 = some (.subn 0x1 0x2) ∧
    decodeWord 0b1000000100101110 = some (.shl 0x1 0x2) ∧
    decodeWord 0b1100010000001111 = some (.rnd 0x4 0x0F) := by decide

theorem test_decode_index_memory :
    decodeWord 0b1010000100100011 = some (.ldI 0x123) ∧ decodeWord 0b1111001100011110 = some (.addIV 0x3) ∧
    decodeWord 0b1111001100101001 = some (.ldFV 0x3) ∧ decodeWord 0b1111000100110011 = some (.ldBV 0x1) ∧
    decodeWord 0b1111001001010101 = some (.ldMemV 0x2) ∧
    decodeWord 0b1111001001100101 = some (.ldVMem 0x2) := by decide

theorem test_decode_display_keys_timers :
    decodeWord 0b0000000011100000 = some .cls ∧ decodeWord 0b1101000000010010 = some (.drw 0x0 0x1 0x2) ∧
    decodeWord 0b1110010110011110 = some (.skp 0x5) ∧ decodeWord 0b1110010110100001 = some (.sknp 0x5) ∧
    decodeWord 0b1111001100000111 = some (.ldVDT 0x3) ∧ decodeWord 0b1111000100001010 = some (.ldVK 0x1) ∧
    decodeWord 0b1111101000010101 = some (.ldDTV 0xA) ∧
    decodeWord 0b1111000100011000 = some (.ldSTV 0x1) := by decide

/-- R90, R96: bytes are read two at a time, first byte high, and what is no instruction is rejected by name. -/
theorem test_decode_bytes :
    decode [0x12, 0x34, 0x56] = .ok (.jp 0x234, [0x56]) ∧ decode [0x12] = .error .tooShort ∧
    decode [0x01, 0x23] = .error (.unimplementedInstruction 0x0123) := by
  refine ⟨?_, ?_, ?_⟩ <;> rfl

/-- The table's word is laid out first byte high (R62), and the encoder gives it back as bytes. -/
theorem test_table_word :
    decodeTableWord 16 0xD011 = some (.drw 0 1 1) ∧ decodeTableWord 16 0x0123 = none ∧
    encodeBytes (.ldBV 1) = [0xF1, 0x33] := by decide

/-! Fetch and step -/

/-- F1: a fetch at 4094 succeeds. -/
theorem test_fetch_at_top : yields (run 0x1200 (s0.setPc 0xFFE)) (okAt 0x200) = true := by decide

/-- F2: a fetch at 4095 does not, and nothing but STATUS changes. -/
theorem test_fetch_past_top :
    step (s0.setPc 0xFFF) = .next { s0.setPc 0xFFF with status := ⟨.outOfBoundsAccess, 0xFFF, 0⟩ } := rfl

/-- F15: an odd pc fetches. -/
theorem test_fetch_odd : yields (run 0x6007 (s0.setPc 0x201)) (fun t => okAt 0x203 t && t.reg 0 = 7) = true := by decide

/-- F4: an illegal word. -/
theorem test_illegal_word_step :
    yields (run 0x0123 s0) (failed .unimplementedInstruction 0x200 0x0123) = true := by decide

/-! Control flow -/

/-- C1. -/
theorem test_nop : yields (run 0x0000 s0) (okAt 0x202) = true := by decide

/-- C2: the popped entry is kept. -/
theorem test_ret :
    yields (run 0x00EE (withStack 1)) (fun t => okAt 0x346 t && t.sp = 0 && t.stack[0] = 0x346) = true := by decide

/-- C3. -/
theorem test_ret_underflow : yields (run 0x00EE s0) (failed .stackUnderflow 0x200 0x00EE) = true := by decide

/-- C5: a target is not checked. -/
theorem test_jp : yields (run 0x1FFF s0) (okAt 0xFFF) = true := by decide

/-- C7: the sixteenth entry. -/
theorem test_call :
    yields (run 0x2ABC (withStack 15)) (fun t => okAt 0xABC t && t.sp = 16 && t.stack[15] = 0x202) = true := by decide

/-- C8. -/
theorem test_call_overflow :
    yields (run 0x2ABC (withStack 16)) (fun t => failed .stackOverflow 0x200 0x2ABC t && t.sp = 16) = true := by decide

/-- C9, C10. -/
theorem test_se_byte :
    yields (run 0x3A42 (s1 0xA 0x42)) (okAt 0x204) = true ∧ yields (run 0x3A42 (s1 0xA 0x43)) (okAt 0x202) = true := by
  decide

/-- C11, C12. -/
theorem test_sne_byte :
    yields (run 0x4A42 (s1 0xA 0x42)) (okAt 0x202) = true ∧ yields (run 0x4A42 (s1 0xA 0x43)) (okAt 0x204) = true := by
  decide

/-- C13, C14: the default polarity. -/
theorem test_se_registers_default :
    yields (run 0x5120 (s2 1 7 2 7)) (okAt 0x202) = true ∧ yields (run 0x5120 (s2 1 7 2 9)) (okAt 0x204) = true := by
  decide

/-- C15, C16: the other polarity. -/
theorem test_se_registers_other :
    yields (run 0x5120 (otherPolarity (s2 1 7 2 7))) (okAt 0x204) = true ∧
    yields (run 0x5120 (otherPolarity (s2 1 7 2 9))) (okAt 0x202) = true := by decide

/-- C18, C19. -/
theorem test_sne_registers :
    yields (run 0x9120 (s2 1 7 2 7)) (okAt 0x202) = true ∧ yields (run 0x9120 (s2 1 7 2 9)) (okAt 0x204) = true := by
  decide

/-- C22: the largest pc, not masked. -/
theorem test_jp_v0 : yields (run 0xBFFF (s1 0 0xFF)) (okAt 0x10FE) = true := by decide

/-! Arithmetic and logic -/

/-- A1. -/
theorem test_ld_byte : yields (run 0x6F12 s0) (fun t => okAt 0x202 t && t.reg 0xF = 0x12) = true := by decide

/-- A3: no carry flag. -/
theorem test_add_byte :
    yields (run 0x7203 (s2 2 0xFE 0xF 0x55)) (fun t => okAt 0x202 t && t.reg 2 = 1 && t.reg 0xF = 0x55) = true := by decide

/-- A4. -/
theorem test_copy : yields (run 0x8120 (s1 2 0x9C)) (fun t => okAt 0x202 t && t.reg 1 = 0x9C) = true := by decide

/-- A5: VF is not cleared. -/
theorem test_or :
    yields (run 0x8121 ((s2 1 0xF0 2 0x0F).setReg 0xF 0x77)) (fun t => t.reg 1 = 0xFF && t.reg 0xF = 0x77) = true := by
  decide

/-- A6. -/
theorem test_and : yields (run 0x8122 (s2 1 0xF0 2 0x3C)) (fun t => t.reg 1 = 0x30) = true := by decide

/-- A7. -/
theorem test_xor : yields (run 0x8123 (s2 1 0xFF 2 0x0F)) (fun t => t.reg 1 = 0xF0) = true := by decide

/-- A9, E5. -/
theorem test_add_carry :
    yields (run 0x8014 (s2 0 0xFF 1 1)) (fun t => okAt 0x202 t && t.reg 0 = 0 && t.reg 0xF = 1) = true := by decide

/-- A12, A13: VF as destination and as source. -/
theorem test_add_vf :
    yields (run 0x8F14 (s2 0xF 0xFF 1 2)) (fun t => t.reg 0xF = 1) = true ∧
    yields (run 0x81F4 (s2 1 0x10 0xF 0x20)) (fun t => t.reg 1 = 0x30 && t.reg 0xF = 0) = true := by decide

/-- A14, E6. -/
theorem test_sub_borrow : yields (run 0x8015 (s2 0 5 1 10)) (fun t => t.reg 0 = 0xFB && t.reg 0xF = 0) = true := by
  decide

/-- A16, A17: no borrow of equals, and the flag over the difference. -/
theorem test_sub_vf :
    yields (run 0x8005 (s1 0 0x33)) (fun t => t.reg 0 = 0 && t.reg 0xF = 1) = true ∧
    yields (run 0x8F15 (s2 0xF 3 1 1)) (fun t => t.reg 0xF = 1) = true := by decide

/-- A19: y = F is ignored. -/
theorem test_shr : yields (run 0x82F6 (s2 2 4 0xF 9)) (fun t => t.reg 2 = 2 && t.reg 0xF = 0) = true := by decide

/-- A20: VF ends as its old bit 0. -/
theorem test_shr_vf : yields (run 0x8F06 (s1 0xF 3)) (fun t => t.reg 0xF = 1) = true := by decide

/-- A21, A22. -/
theorem test_subn :
    yields (run 0x8017 (s2 0 10 1 5)) (fun t => t.reg 0 = 0xFB && t.reg 0xF = 0) = true ∧
    yields (run 0x8017 (s2 0 5 1 10)) (fun t => t.reg 0 = 5 && t.reg 0xF = 1) = true := by decide

/-- A24. -/
theorem test_shl : yields (run 0x830E (s1 3 0x81)) (fun t => t.reg 3 = 2 && t.reg 0xF = 1) = true := by decide

/-- A26: VF ends as its old bit 7. -/
theorem test_shl_vf : yields (run 0x8F0E (s1 0xF 0x80)) (fun t => t.reg 0xF = 1) = true := by decide

/-- A28 with its draw given: 0xA7 and 0x0F is 0x07. -/
theorem test_rnd_draw : (rndWith 0xA7 0 0x0F s0).reg 0 = 0x07 := by decide

/-- R176: one draw is consumed; A30's zero does not depend on the draw. -/
theorem test_rnd_step : yields (run 0xC000 s0) (fun t => okAt 0x202 t && t.draws = 1) = true := by decide

/-! Index and memory -/

/-- M1. -/
theorem test_ld_i : yields (run 0xA123 s0) (fun t => okAt 0x202 t && t.I = 0x123) = true := by decide

/-- M3, M4: the wrap, and no flag. -/
theorem test_add_i :
    yields (run 0xF01E ((s1 0 2).setI 0xFFFF)) (fun t => t.I = 1) = true ∧
    yields (run 0xF01E ((s2 0 1 0xF 0x11).setI 0xFFF)) (fun t => t.I = 0x1000 && t.reg 0xF = 0x11) = true := by decide

/-- M8: unmasked. -/
theorem test_ld_f : yields (run 0xF029 (s1 0 0xFF)) (fun t => okAt 0x202 t && t.I = 0x4FB) = true := by decide

/-- M11: the last three bytes. -/
theorem test_bcd :
    yields (run 0xF133 ((s1 1 255).setI 0xFFD))
      (fun t => okAt 0x202 t && t.readByte 0xFFD = 2 && t.readByte 0xFFE = 5 && t.readByte 0xFFF = 5) = true := by decide

/-- M12. -/
theorem test_bcd_out : yields (run 0xF133 ((s1 1 255).setI 0xFFE)) (failed .outOfBoundsAccess 0x200 0xF133) = true := by
  decide

/-- M14: inclusive, I kept. -/
theorem test_store_registers :
    yields (run 0xF255 (((s2 0 1 1 5).setReg 2 7).setI 0x303))
      (fun t => okAt 0x202 t && t.readByte 0x303 = 1 && t.readByte 0x305 = 7 && t.readByte 0x306 = 0 && t.I = 0x303) =
      true := by decide

/-- M16. -/
theorem test_store_registers_out :
    yields (run 0xF155 ((s1 0 9).setI 0xFFF))
      (fun t => failed .outOfBoundsAccess 0x200 0xF155 t && t.readByte 0xFFF = 0) = true := by decide

/-- M19: x = F from the last sixteen bytes, VF loaded as data. -/
theorem test_load_registers :
    yields (run 0xFF65 (((s1 0 9).setI 0xFF0).writeBytes 0xFFF [0x42]))
      (fun t => okAt 0x202 t && t.reg 0 = 0 && t.reg 0xE = 0 && t.reg 0xF = 0x42) = true := by decide

/-- M20. -/
theorem test_load_registers_out :
    yields (run 0xFF65 ((s1 0 9).setI 0xFF1)) (fun t => failed .outOfBoundsAccess 0x200 0xFF65 t && t.reg 0 = 9) =
      true := by decide

/-! Display -/

/-- D10. -/
theorem test_cls :
    yields (run 0x00E0 (s0.setDisp (Vector.replicate 32 1))) (fun t => okAt 0x202 t && t.disp = Vector.replicate 32 0) =
      true := by decide

/-- D11: the wrap in both axes. -/
theorem test_drw_wraps :
    yields (run 0xD012 (((s2 0 0x3C 1 0x1F).setI 0x300).writeBytes 0x300 [0x81, 0xC3]))
      (fun t => okAt 0x202 t && t.reg 0xF = 0 &&
        t.disp[31] = (1#64 <<< 60 ||| 1#64 <<< 3) &&
        t.disp[0] = (1#64 <<< 60 ||| 1#64 <<< 61 ||| 1#64 <<< 2 ||| 1#64 <<< 3)) = true := by decide

/-- D2, D7: a collision; a sprite past 4095. -/
theorem test_drw_collision_and_bound :
    yields (run 0xD001 (s0.setDisp ((Vector.replicate 32 0).set 0 1)))
      (fun t => t.reg 0xF = 1 && t.disp[0] = 0b1110) = true ∧
    yields (run 0xD002 (s0.setI 0xFFF)) (failed .outOfBoundsAccess 0x200 0xD002) = true := by decide

/-! Keys and timers -/

/-- K1, K5. -/
theorem test_skp :
    yields (run 0xE59E ((s1 5 0xA).setKey 10 true)) (okAt 0x204) = true ∧
    yields (run 0xE59E (s1 5 0x10)) (failed .keyIndexOutOfRange 0x200 0xE59E) = true := by decide

/-- K3, K6. -/
theorem test_sknp :
    yields (run 0xE5A1 (s1 5 0xA)) (okAt 0x204) = true ∧
    yields (run 0xE5A1 (s1 5 0xFF)) (failed .keyIndexOutOfRange 0x200 0xE5A1) = true := by decide

/-- K7. -/
theorem test_read_dt : yields (run 0xF307 (s0.setDT 0x3C)) (fun t => okAt 0x202 t && t.reg 3 = 0x3C && t.DT = 0x3C) = true := by
  decide

/-- K8. -/
theorem test_wait_for_key : yields (run 0xF00A s0) (okAt 0x200) = true := by decide

/-- K9. -/
theorem test_take_key :
    yields (run 0xF00A ((s0.setKey 5 true).setKey 9 true)) (fun t => okAt 0x202 t && t.reg 0 = 5) = true := by decide

/-- K11. -/
theorem test_write_dt : yields (run 0xF215 (s1 2 60)) (fun t => okAt 0x202 t && t.DT = 60 && t.ST = 0) = true := by decide

/-- K12. -/
theorem test_write_st : yields (run 0xF218 (s1 2 4)) (fun t => okAt 0x202 t && t.ST = 4 && t.DT = 0) = true := by decide

/-! Host operations -/

/-- H7, H8. -/
theorem test_step_timers :
    yields (transact .stepTimers ((s0.setDT 5).setST 1)) (fun t => t.DT = 4 && t.ST = 0) = true ∧
    yields (transact .stepTimers s0) (fun t => t.DT = 0 && t.ST = 0) = true := by decide

/-- H5: an odd length. -/
theorem test_load :
    yields (transact (.load [0xAA, 0xBB, 0xCC]) (s0.writeBytes 0x200 [0x11, 0x22, 0x33, 0x44]))
      (fun t => t.readBytes 0x200 4 = [0xAA, 0xBB, 0xCC, 0x44]) = true := by decide

/-- H9, H11. -/
theorem test_set_key :
    yields (transact (.setKey 3 true) s0) (fun t => t.keys[3] && !t.keys[4] && okAt 0x200 t) = true ∧
    yields (transact (.setKey 16 true) s0) (fun t => t.status = ⟨.keyIndexOutOfRange, 0, 0⟩ && t.keys = s0.keys) =
      true := by decide

/-- H6: RESET after mutation; the default glyph of digit 7 (R69) and the erased program. -/
theorem test_reset :
    yields (transact .reset (((s2 0 1 0xF 9).setPc 0x345).writeBytes 0x22 [0x77]))
      (fun t => t.pc = 0x200 && t.reg 0xF = 0 && t.mem = [] && t.readBytes 35 5 = [0xF0, 0x10, 0x20, 0x40, 0x40]) =
      true := by decide

/-- Memory keeps its canonical form when a byte gets its reset contents back. -/
theorem test_memory_canonical :
    (((s0.writeBytes 0x300 [1, 2]).writeBytes 0x2FF [9]).writeBytes 0x300 [0]).mem = [(0x2FF, 9), (0x301, 2)] := by decide

/-- R41: the host's transaction comes first, and the next is kept. -/
theorem test_requests :
    yields (step { s0 with requests := [.setKey 3 true, .stepTimers] })
      (fun t => t.keys[3] && t.requests = [.stepTimers] && t.pc = 0x200) = true := by decide

/-! Witnesses: for each statement with hypotheses, a state and operands that meet all of them together -/

theorem witness_EncodeOfDecodeIsTheWord : decodeWord 0x8126#16 = some (.shr 1 2) := by decide

theorem witness_DecoderFollowsOpcodeMap :
    decodeWord 0xF265#16 = some (.ldVMem 2) ∧ decodeWord 0x5121#16 = none := by decide

theorem witness_OpcodeRowsAreDisjoint :
    (⟨"JP", 0x1000, 0xF000⟩ : OpRow) ∈ opRows ∧ (⟨"JP", 0x1000, 0xF000⟩ : OpRow).matches 0x1200 = true := by decide

theorem witness_StepRunsDecodedInstruction :
    (s0.placeWord 0x8014).requests = [] ∧ (s0.placeWord 0x8014).pc.toNat + 1 ≤ 4095 ∧
    decodeWord ((s0.placeWord 0x8014).readByte (s0.placeWord 0x8014).pc.toNat ++
      (s0.placeWord 0x8014).readByte ((s0.placeWord 0x8014).pc.toNat + 1)) = some (.addVV 0 1) := by decide

theorem witness_PlacedWordRunsNext : decodeTableWord 16 0xF00A = some (.ldVK 0) := by decide

theorem witness_FetchOutsideMemoryRaises :
    (s0.setPc 4095).requests = [] ∧ 4095 ≤ (s0.setPc 4095).pc.toNat := by decide

theorem witness_IllegalWordRaises :
    (s0.placeWord 0x0123).requests = [] ∧ (s0.placeWord 0x0123).pc.toNat + 1 ≤ 4095 ∧
    legalWord ((s0.placeWord 0x0123).readByte (s0.placeWord 0x0123).pc.toNat ++
      (s0.placeWord 0x0123).readByte ((s0.placeWord 0x0123).pc.toNat + 1)) = false := by decide

theorem witness_FailingStepChangesOnlyStatus :
    (s0.placeWord 0x00EE).requests = [] ∧
    ∃ t, step (s0.placeWord 0x00EE) = .next t ∧ (t.status.code != .ok) = true :=
  ⟨rfl, exists_next (by decide)⟩

theorem witness_StepWithoutErrorReportsSuccess :
    (s0.requests = [] ∧ ∃ t, step s0 = .next t ∧ (t.status.code == .ok) = true) ∧
    ∀ k : Fin 16, s0.keys[k] = false :=
  ⟨⟨rfl, exists_next (by decide)⟩, by decide⟩

theorem witness_ErrorsOfEachInstruction :
    ownError (.call 0x300) (withStack 16) = some .stackOverflow ∧ ownError (.call 0x300) (withStack 15) = none ∧
    ownError .ret (withStack 0) = some .stackUnderflow ∧ ownError .ret (withStack 1) = none ∧
    ownError (.skp 0) (s1 0 16) = some .keyIndexOutOfRange ∧ ownError (.skp 0) (s1 0 15) = none ∧
    ownError (.drw 0 0 1) (s0.setI 4096) = some .outOfBoundsAccess ∧ ownError (.drw 0 0 1) (s0.setI 4095) = none ∧
    ownError (.ldBV 0) (s0.setI 4094) = some .outOfBoundsAccess ∧ ownError (.ldBV 0) (s0.setI 4093) = none ∧
    ownError (.ldMemV 1) (s0.setI 4095) = some .outOfBoundsAccess ∧ ownError (.ldVMem 1) (s0.setI 4094) = none := by
  decide

theorem witness_OnlyRandomReadsTheDraw : ∀ (x : Nibble) (nn : Byte), Instr.ldVB 1 2 ≠ .rnd x nn := by
  intro x nn h
  cases h

theorem witness_InstructionsLeaveTheHostsState : ∃ t, exec (.ldVK 0) s0 = .next t ∧ (t.pc == 0x200) = true :=
  exists_next (by decide)

/-- A step that changes a register, one that changes I, the stack, a timer, a pixel, a byte, the draws. -/
theorem witness_WritersOfEachElement :
    (∃ t, exec (.ldVB 3 5) s0 = .next t ∧ (t.reg 3 != s0.reg 3) = true) ∧
    (∃ t, exec (.ldI 5) s0 = .next t ∧ (t.I != s0.I) = true) ∧
    (∃ t, exec (.call 5) s0 = .next t ∧ (t.sp != s0.sp) = true) ∧
    (∃ t, exec (.ldDTV 0) (s1 0 1) = .next t ∧ (t.DT != s0.DT) = true) ∧
    (∃ t, exec (.ldSTV 0) (s1 0 1) = .next t ∧ (t.ST != s0.ST) = true) ∧
    (∃ t, exec (.drw 0 0 1) s0 = .next t ∧ (t.pixel 0 0 != s0.pixel 0 0) = true) ∧
    (∃ t, exec (.ldMemV 0) ((s1 0 1).setI 0x300) = .next t ∧ (t.readByte 0x300 != s0.readByte 0x300) = true) ∧
    (∃ t, exec (.rnd 0 0) s0 = .next t ∧ (t.draws != s0.draws) = true) := by
  refine ⟨?_, ?_, ?_, ?_, ?_, ?_, ?_, ?_⟩ <;> exact exists_next (by decide)

/-- The three invariants hold at reset, and a step from there answers. -/
theorem witness_StepKeepsInvariants :
    (s0.mem = [] ∧ s0.pc.toNat ≤ 4350 ∧ (∀ j : Fin 16, s0.stack[j].toNat ≤ 4096) ∧ s0.status = ⟨.ok, 0, 0⟩) ∧
    ∃ t, step s0 = .next t ∧ (t.pc == 0x202) = true :=
  ⟨by decide, exists_next (by decide)⟩

theorem witness_NopResult : d1 0x00E1#16 = 0x0#4 ∧ 0x00E1#16 ∉ [0x0000#16, 0x00E0#16, 0x00EE#16] := by decide

theorem witness_ReturnResult :
    (withStack 1).sp.val = (0 : Fin 16).val + 1 ∧ (withStack 16).sp.val = (15 : Fin 16).val + 1 ∧ s0.sp.val = 0 := by
  decide

theorem witness_CallResult :
    s0.sp.val = (0 : Fin 16).val ∧ (withStack 15).sp.val = (15 : Fin 16).val ∧ (withStack 16).sp.val = 16 := by decide

theorem witness_CallThenReturn : s0.sp.val < 16 ∧ (withStack 15).sp.val < 16 := by decide

theorem witness_RegisterCompareSkipBothPolarities :
    (otherPolarity s0).config.skip5OnEqual = true ∧ s0.config.skip5OnEqual = false := by decide

theorem witness_FlagOverResult : (0xE#4 : Nibble) ≠ 0xF#4 := by decide

theorem witness_DecimalStoreResult :
    (s0.setI 4093).I.toNat + 2 ≤ 4095 ∧ 4095 < (s0.setI 4094).I.toNat + 2 := by decide

theorem witness_RegisterTransferResults :
    (s0.setI 4080).I.toNat + (15#4 : Nibble).toNat ≤ 4095 ∧ 4095 < (s0.setI 4081).I.toNat + (15#4 : Nibble).toNat ∧
    (s0.setI 4095).I.toNat + (0#4 : Nibble).toNat ≤ 4095 := by decide

theorem witness_StoreIsSeenByTheNextFetch :
    ((s2 0 0x12 1 0x34).setI 0x202).requests = [] ∧
    ((s2 0 0x12 1 0x34).setI 0x202).I = ((s2 0 0x12 1 0x34).setI 0x202).pc + 2 ∧
    ((s2 0 0x12 1 0x34).setI 0x202).pc.toNat + 3 ≤ 4095 ∧
    decodeWord (((s2 0 0x12 1 0x34).setI 0x202).reg 0x0#4 ++ ((s2 0 0x12 1 0x34).setI 0x202).reg 0x1#4) =
      some (.jp 0x234) := by decide

/-- Digit 0's first row drawn at the origin has a bit on pixel (0, 0), which is off; and the same with it on. -/
theorem witness_DrawResult :
    s0.I.toNat + (1#4 : Nibble).toNat ≤ 4096 ∧ spriteBit s0 0 1 1 0 0 ∧ s0.pixel 0 0 = false ∧
    (s0.setDisp (Vector.replicate 32 1)).pixel 0 0 = true :=
  ⟨by decide, ⟨0, 0, by decide⟩, by decide, by decide⟩

theorem witness_DrawOutsideMemoryRaises :
    1 ≤ (2#4 : Nibble).toNat ∧ 4095 < (s0.setI 4095).I.toNat + (2#4 : Nibble).toNat - 1 := by decide

theorem witness_DrawTwiceRestoresTheDisplay :
    (0#4 : Nibble) ≠ 0xF#4 ∧ (0xE#4 : Nibble) ≠ 0xF#4 ∧ (s0.setI 4095).I.toNat + (1#4 : Nibble).toNat ≤ 4096 := by decide

theorem witness_KeySkipResult :
    ((s1 0 0).reg 0).toNat = (0 : Fin 16).val ∧ ((s1 0 15).reg 0).toNat = (15 : Fin 16).val ∧
    16 ≤ ((s1 0 16).reg 0).toNat := by decide

theorem witness_BlockForKeyResult :
    (((s0.setKey 5 true).setKey 9 true).keys[(5 : Fin 16)] = true ∧
      ∀ j : Fin 16, j < 5 → ((s0.setKey 5 true).setKey 9 true).keys[j] = false) ∧
    ∀ k : Fin 16, s0.keys[k] = false := by decide

theorem witness_LoadProgramResult :
    ([0xAA, 0xBB] : List Byte).length ≤ 3584 ∧ ([0xAA, 0xBB] : List Byte)[1]? = some 0xBB ∧
    3584 < (List.replicate 3585 (0 : Byte)).length := by
  rw [List.length_replicate]
  decide

theorem witness_RequestsAreServedInOrder :
    ({ s0 with requests := [.reset, .stepInstr] } : State).requests = .reset :: [.stepInstr] := rfl

end Sys2Proof.Tests
end

/-! The parameters of the build (00_scope.md R9): no step writes them. -/

namespace Sys2Proof.Machine

open Sys2Proof Sys2Proof.Safety

section SameHost

variable {s t u : State}

/-! What of the host's state the two ends of a step and a skip leave alone -/

theorem sameHost_of_commit (h : u.commit = .next t) (hu : sameHost s u) : sameHost s t := by
  obtain rfl := Host.Outcome.next.inj h
  exact hu

theorem sameHost_of_raise {code : Code} {word : Word} (h : s.raise code word = .next t) : sameHost s t := by
  obtain rfl := Host.Outcome.next.inj h
  exact ⟨fun _ => rfl, rfl, rfl⟩

theorem sameHost_of_skipIf_commit {cond : Bool} (h : (s.skipIf cond).commit = .next t) : sameHost s t := by
  rw [State.skipIf_eq] at h
  exact sameHost_of_commit h ⟨fun _ => rfl, rfl, rfl⟩

/-- The shape of the instructions with a check: commit where it passes, else the error. -/
theorem sameHost_of_commit_or_raise {p : Prop} [Decidable p] {code : Code} {word : Word}
    (h : (if p then u.commit else s.raise code word) = .next t) (hu : sameHost s u) : sameHost s t := by
  split at h
  · exact sameHost_of_commit h hu
  · exact sameHost_of_raise h

/-! The instructions that branch on the stack or on a key -/

theorem execRet_sameHost (h : execRet s = .next t) : sameHost s t := by
  unfold execRet at h
  split at h
  next target u hpop =>
    obtain ⟨_, _, rfl⟩ := s.pop_some u target hpop
    exact sameHost_of_commit h ⟨fun _ => rfl, rfl, rfl⟩
  next => exact sameHost_of_raise h

theorem execCall_sameHost {nnn : Addr} (h : execCall nnn s = .next t) : sameHost s t := by
  unfold execCall at h
  split at h
  next u hpush =>
    obtain ⟨_, rfl⟩ := s.push_some u _ hpush
    exact sameHost_of_commit h ⟨fun _ => rfl, rfl, rfl⟩
  next => exact sameHost_of_raise h

theorem execSkp_sameHost {x : Nibble} (h : execSkp x s = .next t) : sameHost s t := by
  unfold execSkp at h
  split at h
  · exact sameHost_of_skipIf_commit h
  · exact sameHost_of_raise h

theorem execSknp_sameHost {x : Nibble} (h : execSknp x s = .next t) : sameHost s t := by
  unfold execSknp at h
  split at h
  · exact sameHost_of_skipIf_commit h
  · exact sameHost_of_raise h

theorem execLdVK_sameHost {x : Nibble} (h : execLdVK x s = .next t) : sameHost s t := by
  unfold execLdVK at h
  split at h <;> exact sameHost_of_commit h ⟨fun _ => rfl, rfl, rfl⟩

/-- No instruction writes the key latch, the parameters or the host's requests (R9, R34). -/
theorem exec_sameHost {i : Instr} (h : exec i s = .next t) : sameHost s t := by
  cases i with
  | ret => exact execRet_sameHost h
  | call => exact execCall_sameHost h
  | skp => exact execSkp_sameHost h
  | sknp => exact execSknp_sameHost h
  | ldVK => exact execLdVK_sameHost h
  | seVB | sneVB | seVV | sneVV => exact sameHost_of_skipIf_commit h
  | drw | ldBV | ldMemV | ldVMem => exact sameHost_of_commit_or_raise h ⟨fun _ => rfl, rfl, rfl⟩
  | _ => exact sameHost_of_commit h ⟨fun _ => rfl, rfl, rfl⟩

/-- STEP_INSTR keeps what every instruction keeps: a failed fetch or decode writes STATUS alone (R125). -/
theorem stepInstr_sameHost (h : stepInstr s = .next t) : sameHost s t := by
  obtain ⟨_, he⟩ | ⟨_, _, _, he⟩ | ⟨_, _, _, _, he⟩ := stepInstr_cases s
  · exact sameHost_of_raise (he ▸ h)
  · exact sameHost_of_raise (he ▸ h)
  · exact exec_sameHost (he ▸ h)

theorem stepInstr_config (h : stepInstr s = .next t) : t.config = s.config := by
  obtain ⟨_, hconfig, _⟩ := stepInstr_sameHost h
  exact hconfig

end SameHost

/-! The host's operations -/

@[simp] theorem hostReset_config (s : State) : (hostReset s).config = s.config := rfl

@[simp] theorem hostStepTimers_config (s : State) : (hostStepTimers s).config = s.config := rfl

@[simp] theorem hostLoad_config (bytes : List Byte) (s : State) : (hostLoad bytes s).config = s.config := by
  unfold hostLoad
  split <;> rfl

@[simp] theorem hostSetKey_config (index : Nat) (pressed : Bool) (s : State) :
    (hostSetKey index pressed s).config = s.config := by
  unfold hostSetKey
  split <;> rfl

/-- No transaction writes the parameters; RESET too starts again from those the state holds. -/
theorem transact_config {x : Txn} {s t : State} (h : transact x s = .next t) : t.config = s.config := by
  cases x with
  | stepInstr => exact stepInstr_config h
  | idle | reset | stepTimers | load | setKey | readDisplay | readState =>
    obtain rfl := Host.Outcome.next.inj h
    simp

/-- Settles O22, by the transaction the step performs: the oldest request, or one STEP_INSTR where there is none. -/
theorem stepKeepsParameters : Obligations.StepKeepsParameters := by
  intro s t h
  unfold step at h
  split at h
  next => exact stepInstr_config h
  next x rest hreq => exact transact_config (s := { s with requests := rest }) h

end Sys2Proof.Machine

/-! The writers of each element of the state (10_state.md R21 to R33, 20_memory.md R64). -/

namespace Sys2Proof.Machine

open Sys2Proof Sys2Proof.Safety

/-- `i` may write register `k`: the writers of R21, and the flag writers of R22 where `k` is VF. -/
def WritesReg (i : Instr) (k : Nibble) : Prop :=
  (∃ nn, i = .ldVB k nn ∨ i = .addVB k nn ∨ i = .rnd k nn) ∨
  (∃ y, i = .ldVV k y ∨ i = .or k y ∨ i = .and k y ∨ i = .xor k y ∨ i = .addVV k y ∨ i = .sub k y ∨
    i = .shr k y ∨ i = .subn k y ∨ i = .shl k y) ∨
  i = .ldVDT k ∨ i = .ldVK k ∨ (∃ x, i = .ldVMem x ∧ k.toNat ≤ x.toNat) ∨
  (k = 0xF#4 ∧ ((∃ x y, i = .addVV x y ∨ i = .sub x y ∨ i = .shr x y ∨ i = .subn x y ∨ i = .shl x y) ∨
    ∃ x y n, i = .drw x y n))

/-- Each element in which `t` differs from `s` is one that `i` may write. It holds of `s` itself, and a plain update
keeps it when `i` is a writer of the element updated; so an instruction's meaning, a chain of updates, is followed
update by update. -/
structure WriterRules (i : Instr) (s t : State) : Prop where
  reg (k : Nibble) : t.reg k ≠ s.reg k → WritesReg i k
  index : t.I ≠ s.I → (∃ nnn, i = .ldI nnn) ∨ ∃ x, i = .addIV x ∨ i = .ldFV x
  stack : ¬sameStack s t → i = .ret ∨ ∃ nnn, i = .call nnn
  delayTimer : t.DT ≠ s.DT → ∃ x, i = .ldDTV x
  soundTimer : t.ST ≠ s.ST → ∃ x, i = .ldSTV x
  display : ¬sameDisplay s t → i = .cls ∨ ∃ x y n, i = .drw x y n
  memory : ¬sameMemory s t → ∃ x, i = .ldBV x ∨ i = .ldMemV x
  draws : t.draws ≠ s.draws → ∃ x nn, i = .rnd x nn

namespace WriterRules

variable {i : Instr} {s t u : State}

theorem refl : WriterRules i s s where
  reg _ h := absurd rfl h
  index h := absurd rfl h
  stack h := absurd ⟨rfl, fun _ => rfl⟩ h
  delayTimer h := absurd rfl h
  soundTimer h := absurd rfl h
  display h := absurd (fun _ _ => rfl) h
  memory h := absurd (fun _ => rfl) h
  draws h := absurd rfl h

/-! The updates of `pc` and STATUS, which every instruction may make -/

theorem setPc (hu : WriterRules i s u) (v : Word) : WriterRules i s (u.setPc v) := { hu with }

theorem advance (hu : WriterRules i s u) : WriterRules i s u.advance := hu.setPc (u.pc + 2)

theorem setStatus (hu : WriterRules i s u) (st : Status) : WriterRules i s (u.setStatus st) := { hu with }

/-! The updates of the other elements, by their writers -/

theorem setReg (hu : WriterRules i s u) {x : Nibble} (hx : WritesReg i x) (v : Byte) :
    WriterRules i s (u.setReg x v) :=
  { hu with
    reg := fun k hk => by
      by_cases hkx : k = x
      · exact hkx ▸ hx
      · rw [State.setReg_reg, if_neg hkx] at hk
        exact hu.reg k hk }

theorem setRegFlag (hu : WriterRules i s u) {x : Nibble} (hx : WritesReg i x) (hf : WritesReg i 0xF#4) (r f : Byte) :
    WriterRules i s (u.setRegFlag x r f) := (hu.setReg hx r).setReg hf f

theorem setRegs (hu : WriterRules i s u) {bs : List Byte} (hbs : ∀ k : Nibble, k.toNat < bs.length → WritesReg i k) :
    WriterRules i s (u.setRegs bs) :=
  { hu with
    reg := fun k hk => by
      by_cases hkb : k.toNat < bs.length
      · exact hbs k hkb
      · rw [State.setRegs_reg, List.getElem?_eq_none (Nat.le_of_not_lt hkb)] at hk
        exact hu.reg k hk }

theorem setI (hu : WriterRules i s u) (hi : (∃ nnn, i = .ldI nnn) ∨ ∃ x, i = .addIV x ∨ i = .ldFV x) (v : Word) :
    WriterRules i s (u.setI v) := { hu with index := fun _ => hi }

theorem setStack (hu : WriterRules i s u) (hi : i = .ret ∨ ∃ nnn, i = .call nnn) (stack : Vector Word 16)
    (sp : Fin 17) : WriterRules i s { u with stack := stack, sp := sp } := { hu with stack := fun _ => hi }

theorem setDT (hu : WriterRules i s u) (hi : ∃ x, i = .ldDTV x) (v : Byte) : WriterRules i s (u.setDT v) :=
  { hu with delayTimer := fun _ => hi }

theorem setST (hu : WriterRules i s u) (hi : ∃ x, i = .ldSTV x) (v : Byte) : WriterRules i s (u.setST v) :=
  { hu with soundTimer := fun _ => hi }

theorem setDisp (hu : WriterRules i s u) (hi : i = .cls ∨ ∃ x y n, i = .drw x y n) (d : Vector (BitVec 64) 32) :
    WriterRules i s (u.setDisp d) := { hu with display := fun _ => hi }

theorem writeBytes (hu : WriterRules i s u) (hi : ∃ x, i = .ldBV x ∨ i = .ldMemV x) (a : Nat) (bs : List Byte) :
    WriterRules i s (u.writeBytes a bs) := { hu with memory := fun _ => hi }

theorem consumeDraw (hu : WriterRules i s u) (hi : ∃ x nn, i = .rnd x nn) : WriterRules i s u.consumeDraw :=
  { hu with draws := fun _ => hi }

/-! The ends of a step, and the shapes several instructions share -/

theorem of_commit (h : u.commit = .next t) (hu : WriterRules i s u) : WriterRules i s t := by
  obtain rfl := Host.Outcome.next.inj h
  exact hu.setStatus _

theorem of_raise {code : Code} {word : Word} (h : s.raise code word = .next t) : WriterRules i s t := by
  obtain rfl := Host.Outcome.next.inj h
  exact refl.setStatus _

theorem of_skipIf_commit {cond : Bool} (h : (s.skipIf cond).commit = .next t) : WriterRules i s t := by
  rw [State.skipIf_eq] at h
  exact of_commit h (refl.setPc _)

/-- An instruction with a check: commit where it passes, else the error. -/
theorem of_commit_or_raise {p : Prop} [Decidable p] {code : Code} {word : Word}
    (h : (if p then u.commit else s.raise code word) = .next t) (hu : WriterRules i s u) : WriterRules i s t := by
  split at h
  · exact of_commit h hu
  · exact of_raise h

/-! The instructions that branch on the stack or on a key -/

theorem of_execRet (h : execRet s = .next t) : WriterRules .ret s t := by
  unfold execRet at h
  split at h
  next target u hpop =>
    obtain ⟨_, _, rfl⟩ := s.pop_some u target hpop
    exact of_commit h ((refl.setStack (.inl rfl) _ _).setPc _)
  next => exact of_raise h

theorem of_execCall {nnn : Addr} (h : execCall nnn s = .next t) : WriterRules (.call nnn) s t := by
  unfold execCall at h
  split at h
  next u hpush =>
    obtain ⟨_, rfl⟩ := s.push_some u _ hpush
    exact of_commit h ((refl.setStack (.inr ⟨nnn, rfl⟩) _ _).setPc _)
  next => exact of_raise h

theorem of_execSkp {x : Nibble} (h : execSkp x s = .next t) : WriterRules i s t := by
  unfold execSkp at h
  split at h
  · exact of_skipIf_commit h
  · exact of_raise h

theorem of_execSknp {x : Nibble} (h : execSknp x s = .next t) : WriterRules i s t := by
  unfold execSknp at h
  split at h
  · exact of_skipIf_commit h
  · exact of_raise h

theorem of_execLdVK {x : Nibble} (h : execLdVK x s = .next t) : WriterRules (.ldVK x) s t := by
  unfold execLdVK at h
  split at h
  · exact of_commit h (refl.setReg (by simp [WritesReg]) _).advance
  · exact of_commit h refl

/-- Every instruction writes only what the spec names it a writer of. -/
theorem of_exec (h : exec i s = .next t) : WriterRules i s t := by
  cases i with
  | nop | jp | jpV0 => exact of_commit h (refl.setPc _)
  | ret => exact of_execRet h
  | call => exact of_execCall h
  | seVB | sneVB | seVV | sneVV => exact of_skipIf_commit h
  | skp => exact of_execSkp h
  | sknp => exact of_execSknp h
  | ldVK => exact of_execLdVK h
  | ldVB | addVB | ldVV | or | and | xor | ldVDT =>
    exact of_commit h (refl.setReg (by simp [WritesReg]) _).advance
  | addVV | sub | shr | subn | shl =>
    exact of_commit h (refl.setRegFlag (by simp [WritesReg]) (by simp [WritesReg]) _ _).advance
  | rnd x nn => exact of_commit h ((refl.setReg (by simp [WritesReg]) _).consumeDraw ⟨x, nn, rfl⟩).advance
  | ldVMem x =>
    refine of_commit_or_raise h (refl.setRegs fun k hk => ?_).advance
    rw [State.readBytes_length] at hk
    simp [WritesReg, Nat.le_of_lt_succ hk]
  | ldI nnn => exact of_commit h (refl.setI (.inl ⟨nnn, rfl⟩) _).advance
  | addIV x => exact of_commit h (refl.setI (.inr ⟨x, .inl rfl⟩) _).advance
  | ldFV x => exact of_commit h (refl.setI (.inr ⟨x, .inr rfl⟩) _).advance
  | ldDTV x => exact of_commit h (refl.setDT ⟨x, rfl⟩ _).advance
  | ldSTV x => exact of_commit h (refl.setST ⟨x, rfl⟩ _).advance
  | cls => exact of_commit h (refl.setDisp (.inl rfl) _).advance
  | drw x y n =>
    exact of_commit_or_raise h ((refl.setDisp (.inr ⟨x, y, n, rfl⟩) _).setReg (by simp [WritesReg]) _).advance
  | ldBV x => exact of_commit_or_raise h (refl.writeBytes ⟨x, .inl rfl⟩ _ _).advance
  | ldMemV x => exact of_commit_or_raise h (refl.writeBytes ⟨x, .inr rfl⟩ _ _).advance

end WriterRules

/-- Settles O17, by following each instruction's meaning update by update. -/
theorem writersOfEachElement : Obligations.WritersOfEachElement := by
  intro i s t h
  obtain ⟨hreg, hindex, hstack, hDT, hST, hdisplay, hmemory, hdraws⟩ := WriterRules.of_exec h
  exact ⟨hreg, hindex, hstack, hDT, hST, hdisplay, hmemory, hdraws⟩

/-- Settles O16, by the frame every instruction keeps. -/
theorem instructionsLeaveTheHostsState : Obligations.InstructionsLeaveTheHostsState :=
  fun _ _ _ h => exec_sameHost h

end Sys2Proof.Machine

/-! The bounds of `pc` and of the return addresses (10_state.md R26, R27). -/

namespace Sys2Proof.Machine

open Sys2Proof Sys2Proof.Safety

/-! The transaction a step performs -/

theorem step_of_no_request {s : State} (h : s.requests = []) : step s = stepInstr s := by
  simp [step, h]

/-- Settles O59, by the step's own choice. -/
theorem requestsAreServedInOrder : Obligations.RequestsAreServedInOrder := by
  intro s x rest h
  simp [step, h]

section PcBounded

variable {s t u : State}

/-- The bounds speak of `pc` and of the stack's entries alone. -/
theorem pcBounded_congr (hs : pcBounded s) (hpc : t.pc = s.pc) (hstack : t.stack = s.stack) : pcBounded t := by
  unfold pcBounded at hs ⊢
  rwa [hpc, hstack]

theorem pcBounded_setPc (hs : pcBounded s) {v : Word} (hv : v.toNat ≤ 4350) : pcBounded (s.setPc v) :=
  ⟨hv, hs.2⟩

/-- A stack whose entries are bounded stays so when a bounded return address is stored in it. -/
theorem stack_set_bounded {stack : Vector Word 16} (hstack : ∀ j : Fin 16, stack[j].toNat ≤ 4096) {v : Word}
    (hv : v.toNat ≤ 4096) (n : Nat) (hn : n < 16) (j : Fin 16) : (stack.set n v)[j].toNat ≤ 4096 := by
  simp only [Fin.getElem_fin, Vector.getElem_set]
  split_ifs
  · exact hv
  · exact hstack j

theorem zextAddr_toNat (nnn : Addr) : (zextAddr nnn).toNat = nnn.toNat :=
  BitVec.toNat_setWidth_of_le (by decide)

theorem zextByte_toNat (v : Byte) : (zextByte v).toNat = v.toNat :=
  BitVec.toNat_setWidth_of_le (by decide)

/-- The target of Bnnn is the sum of the two numbers: it is at most 255 + 4095 and does not wrap (R148). -/
theorem offsetTarget_toNat (v : Byte) (nnn : Addr) : (zextByte v + zextAddr nnn).toNat = v.toNat + nnn.toNat := by
  rw [BitVec.toNat_add, zextByte_toNat, zextAddr_toNat]
  omega

/-! The two ends of a step -/

theorem pcBounded_of_commit (h : u.commit = .next t) (hu : pcBounded u) : pcBounded t := by
  obtain rfl := Host.Outcome.next.inj h
  exact hu

theorem pcBounded_of_raise (hs : pcBounded s) {code : Code} {word : Word} (h : s.raise code word = .next t) :
    pcBounded t := by
  obtain rfl := Host.Outcome.next.inj h
  exact hs

/-! The instructions, from a state whose fetch succeeded -/

/-- The advance does not wrap, after a fetch or after a first advance. -/
theorem word_add_two_toNat {v : Word} (hv : v.toNat ≤ 4096) : (v + 2).toNat = v.toNat + 2 := by
  bv_omega

/-- The shape of the straight-line instructions: neither `pc` nor the stack is written before the advance. -/
theorem pcBounded_of_advance_commit (hs : pcBounded s) (hpc : s.pc.toNat ≤ 4094)
    (h : u.advance.commit = .next t) (hupc : u.pc = s.pc) (hustack : u.stack = s.stack) : pcBounded t := by
  refine pcBounded_of_commit h (pcBounded_setPc (pcBounded_congr hs hupc hustack) ?_)
  rw [hupc, word_add_two_toNat (by omega)]
  omega

/-- The shape of the instructions with a check: advance and commit where it passes, else the error. -/
theorem pcBounded_of_commit_or_raise (hs : pcBounded s) (hpc : s.pc.toNat ≤ 4094) {p : Prop} [Decidable p]
    {code : Code} {word : Word} (h : (if p then u.advance.commit else s.raise code word) = .next t)
    (hupc : u.pc = s.pc) (hustack : u.stack = s.stack) : pcBounded t := by
  split at h
  · exact pcBounded_of_advance_commit hs hpc h hupc hustack
  · exact pcBounded_of_raise hs h

theorem pcBounded_of_skipIf_commit (hs : pcBounded s) (hpc : s.pc.toNat ≤ 4094) {cond : Bool}
    (h : (s.skipIf cond).commit = .next t) : pcBounded t := by
  rw [State.skipIf_eq] at h
  refine pcBounded_of_commit h (pcBounded_setPc hs ?_)
  have hpc2 : (s.pc + 2).toNat = s.pc.toNat + 2 := word_add_two_toNat (by omega)
  split
  · rw [word_add_two_toNat (by omega)]
    omega
  · omega

/-- A return goes to an entry of the stack. -/
theorem execRet_pcBounded (hs : pcBounded s) (h : execRet s = .next t) : pcBounded t := by
  unfold execRet at h
  split at h
  next target u hpop =>
    obtain ⟨hsp, rfl, rfl⟩ := s.pop_some u target hpop
    have hentry := hs.2 ⟨s.sp.val - 1, by omega⟩
    exact pcBounded_of_commit h ⟨Nat.le_trans hentry (by decide), hs.2⟩
  next => exact pcBounded_of_raise hs h

/-- A call pushes the address behind a fetched instruction. -/
theorem execCall_pcBounded (hs : pcBounded s) (hpc : s.pc.toNat ≤ 4094) {nnn : Addr}
    (h : execCall nnn s = .next t) : pcBounded t := by
  unfold execCall at h
  split at h
  next u hpush =>
    obtain ⟨hsp, rfl⟩ := s.push_some u _ hpush
    have hreturn : (s.pc + 2).toNat ≤ 4096 := by
      rw [word_add_two_toNat (by omega)]
      omega
    have htarget : (zextAddr nnn).toNat ≤ 4350 := by
      rw [zextAddr_toNat]
      omega
    exact pcBounded_of_commit h ⟨htarget, stack_set_bounded hs.2 hreturn _ hsp⟩
  next => exact pcBounded_of_raise hs h

theorem execSkp_pcBounded (hs : pcBounded s) (hpc : s.pc.toNat ≤ 4094) {x : Nibble} (h : execSkp x s = .next t) :
    pcBounded t := by
  unfold execSkp at h
  split at h
  · exact pcBounded_of_skipIf_commit hs hpc h
  · exact pcBounded_of_raise hs h

theorem execSknp_pcBounded (hs : pcBounded s) (hpc : s.pc.toNat ≤ 4094) {x : Nibble} (h : execSknp x s = .next t) :
    pcBounded t := by
  unfold execSknp at h
  split at h
  · exact pcBounded_of_skipIf_commit hs hpc h
  · exact pcBounded_of_raise hs h

theorem execLdVK_pcBounded (hs : pcBounded s) (hpc : s.pc.toNat ≤ 4094) {x : Nibble} (h : execLdVK x s = .next t) :
    pcBounded t := by
  unfold execLdVK at h
  split at h
  · exact pcBounded_of_advance_commit hs hpc h rfl rfl
  · exact pcBounded_of_commit h hs

/-- Every instruction that a fetch reached keeps the bounds. -/
theorem exec_pcBounded (hs : pcBounded s) (hpc : s.pc.toNat ≤ 4094) {i : Instr} (h : exec i s = .next t) :
    pcBounded t := by
  cases i with
  | ret => exact execRet_pcBounded hs h
  | call => exact execCall_pcBounded hs hpc h
  | skp => exact execSkp_pcBounded hs hpc h
  | sknp => exact execSknp_pcBounded hs hpc h
  | ldVK => exact execLdVK_pcBounded hs hpc h
  | jp => exact pcBounded_of_commit h (pcBounded_setPc hs (by rw [zextAddr_toNat]; omega))
  | jpV0 => exact pcBounded_of_commit h (pcBounded_setPc hs (by rw [offsetTarget_toNat]; omega))
  | seVB | sneVB | seVV | sneVV => exact pcBounded_of_skipIf_commit hs hpc h
  | drw | ldBV | ldMemV | ldVMem => exact pcBounded_of_commit_or_raise hs hpc h rfl rfl
  | _ => exact pcBounded_of_advance_commit hs hpc h rfl rfl

/-- A word is fetched from inside memory alone (R121). -/
theorem pc_le_of_fetch {w : Word} (h : s.fetch = some w) : s.pc.toNat ≤ 4094 := by
  by_contra hpc
  rw [State.fetch_eq, if_neg hpc] at h
  cases h

theorem stepInstr_pcBounded (hs : pcBounded s) (h : stepInstr s = .next t) : pcBounded t := by
  obtain ⟨_, he⟩ | ⟨_, _, _, he⟩ | ⟨_, _, hfetch, _, he⟩ := stepInstr_cases s
  · exact pcBounded_of_raise hs (he ▸ h)
  · exact pcBounded_of_raise hs (he ▸ h)
  · exact exec_pcBounded hs (pc_le_of_fetch hfetch) (he ▸ h)

/-! The host's operations -/

theorem resetWith_pcBounded (c : Config) : pcBounded (State.resetWith c) :=
  ⟨by simp [State.resetWith], fun j => by simp [State.resetWith]⟩

theorem hostLoad_pcBounded (hs : pcBounded s) (bytes : List Byte) : pcBounded (hostLoad bytes s) := by
  unfold hostLoad
  split <;> exact hs

theorem hostSetKey_pcBounded (hs : pcBounded s) (index : Nat) (pressed : Bool) :
    pcBounded (hostSetKey index pressed s) := by
  unfold hostSetKey
  split <;> exact hs

theorem transact_pcBounded (hs : pcBounded s) {x : Txn} (h : transact x s = .next t) : pcBounded t := by
  cases x with
  | stepInstr => exact stepInstr_pcBounded hs h
  | idle | readDisplay | readState | stepTimers =>
    obtain rfl := Host.Outcome.next.inj h
    exact hs
  | reset =>
    obtain rfl := Host.Outcome.next.inj h
    exact resetWith_pcBounded s.config
  | load bytes =>
    obtain rfl := Host.Outcome.next.inj h
    exact hostLoad_pcBounded hs bytes
  | setKey index pressed =>
    obtain rfl := Host.Outcome.next.inj h
    exact hostSetKey_pcBounded hs index pressed

end PcBounded

/-- Settles O20, by the transaction the step performs. -/
theorem stepKeepsPcBounded : Obligations.StepKeepsPcBounded := by
  intro s t hs h
  cases hreq : s.requests with
  | nil => exact stepInstr_pcBounded hs (step_of_no_request hreq ▸ h)
  | cons x rest =>
    rw [requestsAreServedInOrder s x rest hreq] at h
    exact transact_pcBounded (s := { s with requests := rest }) hs h

end Sys2Proof.Machine

/-! The state after reset (10_state.md R44), and push and pop as last in, first out (10_state.md R29). -/

namespace Sys2Proof.Machine

open Sys2Proof Sys2Proof.Safety

/-- Settles O23, invariant by invariant. -/
theorem resetMeetsInvariants : Obligations.ResetMeetsInvariants :=
  ⟨fun c => ⟨State.resetWith_memory_wf c, resetWith_pcBounded c, rfl, rfl⟩, by decide⟩

/-- After reset every byte holds its reset contents: memory lists none that differs. -/
theorem resetWith_readByte (c : Config) (a : Nat) : (State.resetWith c).readByte a = initialByte c a := rfl

/-- Settles O24, element by element. -/
theorem resetValues : Obligations.ResetValues := by
  intro c
  have hglyph (a : Nat) (h : a < 80) : (State.resetWith c).readByte a = c.glyphTable[a] := by
    rw [resetWith_readByte, initialByte, dif_pos h]
  have hzero (a : Nat) (h : 80 ≤ a) : (State.resetWith c).readByte a = 0 := by
    rw [resetWith_readByte, initialByte, dif_neg (Nat.not_lt.mpr h)]
  refine ⟨hglyph, hzero, fun k => ?_, rfl, rfl, rfl, fun j => ?_, rfl, rfl, fun px py => ?_, fun k => ?_, rfl⟩
  · simp [State.reg, State.resetWith]
  · simp [State.resetWith]
  · simp [State.pixel, State.resetWith]
  · simp [State.resetWith]

/-- The display port shows `disp[px, py]` at `px + 64·py` (R215). -/
theorem readDisplay_getElem? (s : State) (px : Fin 64) (py : Fin 32) :
    s.readDisplay[px.val + 64 * py.val]? = some (s.pixel px py) := by
  have hlt : px.val + 64 * py.val < 2048 := by omega
  have hpx : (px.val + 64 * py.val) % 64 = px.val := by omega
  have hpy : (px.val + 64 * py.val) / 64 = py.val := by omega
  simp [State.readDisplay, hlt, hpx, hpy]

/-- Settles O58, by the order of the display port. -/
theorem readsChangeNothing : Obligations.ReadsChangeNothing :=
  fun s => ⟨rfl, rfl, rfl, ⟨s.readDisplay, rfl, readDisplay_getElem? s⟩, rfl, rfl⟩

/-- With `j` entries in use a push writes entry `j`. -/
theorem State.push_of_sp (s : State) (v : Word) (j : Fin 16) (h : s.sp.val = j.val) :
    s.push v = some { s with stack := s.stack.set j.val v, sp := j.succ } := by
  unfold State.push
  simp only [h, j.isLt, ↓reduceDIte]
  rfl

/-- With `j + 1` entries in use a pop gives entry `j` and leaves it where it is (D16). -/
theorem State.pop_of_sp (s : State) (j : Fin 16) (h : s.sp.val = j.val + 1) :
    s.pop = some (s.stack[j], { s with sp := j.castSucc }) := by
  unfold State.pop
  simp only [h, Nat.succ_pos, ↓reduceDIte, Nat.add_sub_cancel]
  rfl

theorem execCall_of_sp (nnn : Addr) (s : State) (j : Fin 16) (h : s.sp.val = j.val) :
    exec (.call nnn) s = .next { s with
      stack := s.stack.set j.val (s.pc + 2), sp := j.succ, pc := zextAddr nnn, status := Status.success } := by
  show execCall nnn s = _
  rw [execCall, State.push_of_sp s _ j h]
  rfl

theorem execRet_of_sp (s : State) (j : Fin 16) (h : s.sp.val = j.val + 1) :
    exec .ret s = .next { s with sp := j.castSucc, pc := s.stack[j], status := Status.success } := by
  show execRet s = _
  rw [execRet, State.pop_of_sp s j h]
  rfl

/-- Settles O29: the RET pops the entry that the CALL pushed. -/
theorem callThenReturn : Obligations.CallThenReturn := by
  intro nnn s hsp
  refine ⟨_, _, execCall_of_sp nnn s ⟨s.sp.val, hsp⟩ rfl, execRet_of_sp _ ⟨s.sp.val, hsp⟩ rfl, rfl, ?_, rfl,
    fun k hk => ?_, fun _ _ => rfl, rfl, fun _ => rfl, fun _ _ => rfl, ⟨rfl, rfl⟩, ⟨fun _ => rfl, rfl, rfl⟩, rfl⟩
  · simp
  · simp [hk.symm]

end Sys2Proof.Machine

/-! Memory: every step keeps its canonical form (20_memory.md R60), a store is seen by the next fetch (R78), and LOAD
writes the image (R72, R73). -/

namespace Sys2Proof.Machine

open Sys2Proof Sys2Proof.Safety

section MemoryCanonical

variable {s t u : State}

/-- The canonical form speaks of memory and the parameters alone, so only the stores have anything to prove. -/
theorem memoryCanonical_congr (hs : memoryCanonical s) (hmem : t.mem = s.mem) (hconfig : t.config = s.config) :
    memoryCanonical t := by
  unfold memoryCanonical at hs ⊢
  rwa [hmem, hconfig]

theorem memoryCanonical_writeBytes (hs : memoryCanonical s) (a : Nat) (bs : List Byte) :
    memoryCanonical (s.writeBytes a bs) := Memory.writeBytes_wf s.config s.mem a bs hs

theorem memoryCanonical_of_commit (h : u.commit = .next t) (hu : memoryCanonical u) : memoryCanonical t := by
  obtain rfl := Host.Outcome.next.inj h
  exact hu

theorem memoryCanonical_of_raise (hs : memoryCanonical s) {code : Code} {word : Word}
    (h : s.raise code word = .next t) : memoryCanonical t := by
  obtain rfl := Host.Outcome.next.inj h
  exact hs

theorem memoryCanonical_of_skipIf_commit (hs : memoryCanonical s) {cond : Bool}
    (h : (s.skipIf cond).commit = .next t) : memoryCanonical t := by
  rw [State.skipIf_eq] at h
  exact memoryCanonical_of_commit h hs

/-- The shape of the instructions with a check: commit where it passes, else the error. -/
theorem memoryCanonical_of_commit_or_raise (hs : memoryCanonical s) {p : Prop} [Decidable p] {code : Code}
    {word : Word} (h : (if p then u.commit else s.raise code word) = .next t) (hu : memoryCanonical u) :
    memoryCanonical t := by
  split at h
  · exact memoryCanonical_of_commit h hu
  · exact memoryCanonical_of_raise hs h

theorem execRet_memoryCanonical (hs : memoryCanonical s) (h : execRet s = .next t) : memoryCanonical t := by
  unfold execRet at h
  split at h
  next target u hpop =>
    obtain ⟨_, _, rfl⟩ := s.pop_some u target hpop
    exact memoryCanonical_of_commit h hs
  next => exact memoryCanonical_of_raise hs h

theorem execCall_memoryCanonical (hs : memoryCanonical s) {nnn : Addr} (h : execCall nnn s = .next t) :
    memoryCanonical t := by
  unfold execCall at h
  split at h
  next u hpush =>
    obtain ⟨_, rfl⟩ := s.push_some u _ hpush
    exact memoryCanonical_of_commit h hs
  next => exact memoryCanonical_of_raise hs h

theorem execSkp_memoryCanonical (hs : memoryCanonical s) {x : Nibble} (h : execSkp x s = .next t) :
    memoryCanonical t := by
  unfold execSkp at h
  split at h
  · exact memoryCanonical_of_skipIf_commit hs h
  · exact memoryCanonical_of_raise hs h

theorem execSknp_memoryCanonical (hs : memoryCanonical s) {x : Nibble} (h : execSknp x s = .next t) :
    memoryCanonical t := by
  unfold execSknp at h
  split at h
  · exact memoryCanonical_of_skipIf_commit hs h
  · exact memoryCanonical_of_raise hs h

theorem execLdVK_memoryCanonical (hs : memoryCanonical s) {x : Nibble} (h : execLdVK x s = .next t) :
    memoryCanonical t := by
  unfold execLdVK at h
  split at h <;> exact memoryCanonical_of_commit h hs

/-- No instruction breaks the canonical form: Fx33 and Fx55 store byte by byte, the others do not write memory (R64). -/
theorem exec_memoryCanonical (hs : memoryCanonical s) {i : Instr} (h : exec i s = .next t) : memoryCanonical t := by
  cases i with
  | ldBV | ldMemV => exact memoryCanonical_of_commit_or_raise hs h (memoryCanonical_writeBytes hs _ _)
  | drw => exact memoryCanonical_of_commit_or_raise hs h hs
  | ldVMem => exact memoryCanonical_of_commit_or_raise hs h (memoryCanonical_congr hs (by simp) (by simp))
  | ret => exact execRet_memoryCanonical hs h
  | call => exact execCall_memoryCanonical hs h
  | skp => exact execSkp_memoryCanonical hs h
  | sknp => exact execSknp_memoryCanonical hs h
  | ldVK => exact execLdVK_memoryCanonical hs h
  | seVB | sneVB | seVV | sneVV => exact memoryCanonical_of_skipIf_commit hs h
  | _ => exact memoryCanonical_of_commit h hs

theorem stepInstr_memoryCanonical (hs : memoryCanonical s) (h : stepInstr s = .next t) : memoryCanonical t := by
  obtain ⟨_, he⟩ | ⟨_, _, _, he⟩ | ⟨_, _, _, _, he⟩ := stepInstr_cases s
  · exact memoryCanonical_of_raise hs (he ▸ h)
  · exact memoryCanonical_of_raise hs (he ▸ h)
  · exact exec_memoryCanonical hs (he ▸ h)

/-! The host's operations: LOAD stores its image, RESET starts from the empty list -/

theorem hostLoad_memoryCanonical (hs : memoryCanonical s) (bytes : List Byte) :
    memoryCanonical (hostLoad bytes s) := by
  unfold hostLoad
  split
  · exact memoryCanonical_writeBytes hs 512 bytes
  · exact hs

theorem hostSetKey_memoryCanonical (hs : memoryCanonical s) (index : Nat) (pressed : Bool) :
    memoryCanonical (hostSetKey index pressed s) := by
  unfold hostSetKey
  split <;> exact hs

theorem transact_memoryCanonical (hs : memoryCanonical s) {x : Txn} (h : transact x s = .next t) :
    memoryCanonical t := by
  cases x with
  | stepInstr => exact stepInstr_memoryCanonical hs h
  | idle | readDisplay | readState | stepTimers =>
    obtain rfl := Host.Outcome.next.inj h
    exact hs
  | reset =>
    obtain rfl := Host.Outcome.next.inj h
    exact State.resetWith_memory_wf s.config
  | load bytes =>
    obtain rfl := Host.Outcome.next.inj h
    exact hostLoad_memoryCanonical hs bytes
  | setKey index pressed =>
    obtain rfl := Host.Outcome.next.inj h
    exact hostSetKey_memoryCanonical hs index pressed

end MemoryCanonical

/-- Settles O19, by the transaction the step performs. -/
theorem stepKeepsMemoryCanonical : Obligations.StepKeepsMemoryCanonical := by
  intro s t hs h
  cases hreq : s.requests with
  | nil => exact stepInstr_memoryCanonical hs (step_of_no_request hreq ▸ h)
  | cons x rest =>
    rw [requestsAreServedInOrder s x rest hreq] at h
    exact transact_memoryCanonical (s := { s with requests := rest }) hs h

/-! A store and the fetch after it -/

theorem step_of_fetch {s : State} {w : Word} {i : Instr} (hreq : s.requests = []) (hfetch : s.fetch = some w)
    (hdecode : decodeWord w = some i) : step s = exec i s := by
  simp [step_of_no_request hreq, stepInstr, hfetch, hdecode]

/-- Fx55 completes when its last byte, at `I + x`, is inside memory (R204). -/
theorem execLdMemV_of_fits {s : State} {x : Nibble} (h : s.I.toNat + x.toNat ≤ 4095) :
    exec (.ldMemV x) s = (s.writeBytes (s.dataAddr 0) (s.regsUpTo x)).advance.commit := by
  have hrange : rangeOk (s.dataAddr 0) (x.toNat + 1) = true := by
    rw [rangeOk_iff, State.dataAddr]
    omega
  exact if_pos hrange

/-- The byte Fx55 stores at `I + k` reads as `V[k]` (R204). -/
theorem State.storedRegs_readByte {s : State} {x k : Nibble} (h : s.I.toNat + x.toNat ≤ 4095)
    (hk : k.toNat ≤ x.toNat) :
    (s.writeBytes (s.dataAddr 0) (s.regsUpTo x)).readByte (s.dataAddr k.toNat) = s.reg k := by
  have hfits : s.dataAddr 0 + (s.regsUpTo x).length ≤ 4096 := by
    rw [State.regsUpTo_length, State.dataAddr]
    omega
  have hle : s.dataAddr 0 ≤ s.dataAddr k.toNat := Nat.add_le_add_left (Nat.zero_le _) _
  have hoffset : s.dataAddr k.toNat - s.dataAddr 0 = k.toNat := Nat.add_sub_add_left ..
  rw [State.writeBytes_readByte _ _ _ _ hfits, if_pos hle, hoffset, State.regsUpTo_getElem? s x k hk, Option.getD_some]

/-- Settles O46: the fetch reads the two bytes that F155 stored at `I = pc + 2`. -/
theorem storeIsSeenByTheNextFetch : Obligations.StoreIsSeenByTheNextFetch := by
  intro s i hreq hI hpc hdecode
  have hItoNat : s.I.toNat = s.pc.toNat + 2 := hI ▸ word_add_two_toNat (by omega)
  have hfits : s.I.toNat + (0x1#4 : Nibble).toNat ≤ 4095 := hItoNat ▸ hpc
  obtain ⟨t, hexec, htpc, htreq, htread⟩ : ∃ t, exec (.ldMemV 0x1#4) s = .next t ∧ t.pc = s.pc + 2 ∧
      t.requests = s.requests ∧ ∀ k : Nibble, k.toNat ≤ 1 → t.readByte (s.dataAddr k.toNat) = s.reg k :=
    ⟨_, execLdMemV_of_fits hfits, rfl, rfl, fun _ hk => State.storedRegs_readByte hfits hk⟩
  have hfetch : t.fetch = some (s.reg 0x0#4 ++ s.reg 0x1#4) := by
    rw [State.fetch_eq, htpc, ← hI, if_pos (by omega)]
    exact congrArg some (congrArg₂ wordOfBytes (htread 0x0#4 (by decide)) (htread 0x1#4 (by decide)))
  exact ⟨t, hexec, step_of_fetch (htreq.trans hreq) hfetch hdecode⟩

/-! LOAD -/

theorem transact_load_of_fits {bytes : List Byte} (h : bytes.length ≤ 3584) (s : State) :
    transact (.load bytes) s = .next ((s.writeBytes 512 bytes).setStatus Status.success) := by
  simp [transact, hostLoad, imageFits, h]

theorem transact_load_of_exceeds {bytes : List Byte} (h : 3584 < bytes.length) (s : State) :
    transact (.load bytes) s = .next (s.setStatus ⟨.capacityExceeded, 0, 0⟩) := by
  simp [transact, hostLoad, imageFits, h]

/-- Settles O55: an image of at most 3584 bytes from 512 on ends inside memory, so it reads back byte by byte. -/
theorem loadProgramResult : Obligations.LoadProgramResult := by
  intro bytes s
  refine ⟨fun hfits => ?_, fun hexceeds => transact_load_of_exceeds hexceeds s⟩
  have hread (a : Nat) := s.writeBytes_readByte 512 a bytes (by omega)
  refine ⟨_, transact_load_of_fits hfits s, rfl, rfl, fun k b hb => ?_, fun a ha => ?_, fun _ _ => rfl, rfl,
    ⟨rfl, fun _ => rfl⟩, fun _ _ => rfl, ⟨rfl, rfl⟩, ⟨fun _ => rfl, rfl, rfl⟩, rfl⟩
  · refine (hread (512 + k)).trans ?_
    simp [hb]
  · refine (hread a).trans ?_
    split_ifs with hle
    · rw [List.getElem?_eq_none (by omega), Option.getD_none]
    · rfl

end Sys2Proof.Machine

/-! The decoder, the encoder and the opcode map (30_encoding.md R91 to R97). -/

namespace Sys2Proof.Laws.EncodingInOpcodeMap

open Sys2Proof

/-- The word of every instruction matches the row of its mnemonic, by the lemma of its constructor. -/
theorem encoding_matches_row : ∀ i : Instr, Statement i
  | .nop => nop
  | .cls => cls
  | .ret => ret
  | .jp nnn => jp nnn
  | .call nnn => call nnn
  | .seVB x nn => seVB x nn
  | .sneVB x nn => sneVB x nn
  | .seVV x y => seVV x y
  | .ldVB x nn => ldVB x nn
  | .addVB x nn => addVB x nn
  | .ldVV x y => ldVV x y
  | .or x y => or x y
  | .and x y => and x y
  | .xor x y => xor x y
  | .addVV x y => addVV x y
  | .sub x y => sub x y
  | .shr x y => shr x y
  | .subn x y => subn x y
  | .shl x y => shl x y
  | .sneVV x y => sneVV x y
  | .ldI nnn => ldI nnn
  | .jpV0 nnn => jpV0 nnn
  | .rnd x nn => rnd x nn
  | .drw x y n => drw x y n
  | .skp x => skp x
  | .sknp x => sknp x
  | .ldVDT x => ldVDT x
  | .ldVK x => ldVK x
  | .ldDTV x => ldDTV x
  | .ldSTV x => ldSTV x
  | .addIV x => addIV x
  | .ldFV x => ldFV x
  | .ldBV x => ldBV x
  | .ldMemV x => ldMemV x
  | .ldVMem x => ldVMem x

end Sys2Proof.Laws.EncodingInOpcodeMap

namespace Sys2Proof

open Sys2Proof.Machine Sys2Proof.Safety

/-- Settles O1, format by format: the fields of a word put together from fields are those fields. -/
theorem decodeOfEncodeIsTheInstruction : Obligations.DecodeOfEncodeIsTheInstruction := by
  intro i
  cases i
  case nop | cls | ret => rfl
  case jp | call | ldI | jpV0 => simp [encode, decodeWord]
  case seVB | sneVB | ldVB | addVB | rnd => simp [encode, decodeWord]
  case seVV | sneVV | drw => simp [encode, decodeWord]
  case ldVV | or | and | xor | addVV | sub | shr | subn | shl => simp [encode, decodeWord, decode8]
  case skp | sknp => simp [encode, decodeWord, decodeE]
  all_goals simp [encode, decodeWord, decodeF]

section Decoder

variable {w : Word} {x y k : Nibble} {b : Byte} {i : Instr}

/-! What each part of the decoder answers encodes to the word the part was given -/

theorem encode_of_decode0 (h : decode0 w = some i) : encode i = w := by
  unfold decode0 at h
  split_ifs at h with hnop hcls hret <;> cases h
  · exact hnop.symm
  · exact hcls.symm
  · exact hret.symm

theorem encode_of_decode8 (h : decode8 x y k = some i) : encode i = 0x8#4 ++ x ++ y ++ k := by
  unfold decode8 at h
  split at h <;> cases h <;> rfl

theorem encode_of_decodeE (h : decodeE x b = some i) : encode i = 0xE#4 ++ x ++ b := by
  unfold decodeE at h
  split at h <;> cases h <;> rfl

theorem encode_of_decodeF (h : decodeF x b = some i) : encode i = 0xF#4 ++ x ++ b := by
  unfold decodeF at h
  split at h <;> cases h <;> rfl

/-! Which words each part of the decoder refuses -/

theorem decode0_eq_none_iff : decode0 w = none ↔ w ≠ 0x0000#16 ∧ w ≠ 0x00E0#16 ∧ w ≠ 0x00EE#16 := by
  unfold decode0
  split_ifs <;> simp_all

/-- A nibble that none of the nine arms names is 8 to D or F. -/
theorem decode8_eq_none_iff : decode8 x y k = none ↔ 8 ≤ k.toNat ∧ k ≠ 0xE#4 := by
  have hother : ∀ k : Nibble, k ∉ [0x0#4, 0x1#4, 0x2#4, 0x3#4, 0x4#4, 0x5#4, 0x6#4, 0x7#4] → 8 ≤ k.toNat := by
    decide
  unfold decode8
  split
  case h_10 => simp_all
  all_goals simp

theorem decodeE_eq_none_iff : decodeE x b = none ↔ b ≠ 0x9E#8 ∧ b ≠ 0xA1#8 := by
  unfold decodeE
  split <;> simp_all

theorem decodeF_eq_none_iff : decodeF x b = none ↔
    b ∉ [0x07#8, 0x0A#8, 0x15#8, 0x18#8, 0x1E#8, 0x29#8, 0x33#8, 0x55#8, 0x65#8] := by
  unfold decodeF
  split <;> simp_all

/-- The sixteen arms of the decoder leave no nibble over. -/
theorem nibble_mem : ∀ d : Nibble, d ∈ [0x0#4, 0x1#4, 0x2#4, 0x3#4, 0x4#4, 0x5#4, 0x6#4, 0x7#4, 0x8#4, 0x9#4, 0xA#4,
    0xB#4, 0xC#4, 0xD#4, 0xE#4, 0xF#4] := by
  decide

end Decoder

/-- Settles O2, by the leading nibble: the word is that nibble followed by the fields the arm keeps. -/
theorem encodeOfDecodeIsTheWord : Obligations.EncodeOfDecodeIsTheWord := by
  intro w i h
  unfold decodeWord at h
  split at h
  case h_1 => exact encode_of_decode0 h
  case h_2 h1 | h_3 h1 | h_11 h1 | h_12 h1 =>
    cases h
    rw [encode, ← h1, word_eq_addr]
  case h_4 h1 | h_5 h1 | h_7 h1 | h_8 h1 | h_13 h1 =>
    cases h
    rw [encode, ← h1, word_eq_byte]
  case h_6 h1 | h_10 h1 =>
    split_ifs at h with h4
    cases h
    rw [encode, ← h1, ← h4, word_eq_nibbles]
  case h_9 h1 => exact (encode_of_decode8 h).trans (h1 ▸ word_eq_nibbles w)
  case h_14 h1 =>
    cases h
    rw [encode, ← h1, word_eq_nibbles]
  case h_15 h1 => exact (encode_of_decodeE h).trans (h1 ▸ word_eq_byte w)
  case h_16 h1 => exact (encode_of_decodeF h).trans (h1 ▸ word_eq_byte w)
  case h_17 => cases h

/-- Settles O5, by the leading nibble: an arm refuses some words for 0, 5, 8, 9, E and F alone. -/
theorem illegalWordsByLeadingNibble : Obligations.IllegalWordsByLeadingNibble := by
  intro w
  unfold decodeWord
  split
  case h_1 h1 => simp [h1, decode0_eq_none_iff]
  case h_6 h1 | h_10 h1 => simp [h1]
  case h_9 h1 => simp [h1, decode8_eq_none_iff]
  case h_15 h1 => simp [h1, decodeE_eq_none_iff]
  case h_16 h1 => simp [h1, decodeF_eq_none_iff]
  case h_17 =>
    have hmem := nibble_mem (d1 w)
    simp_all
  all_goals -- every word of the other leading nibbles is an instruction
    rename_i h1
    simp [h1]

section OpcodeMap

variable {w : Word} {r q : OpRow}

/-- Rows that share a word agree on the bits that both test. -/
theorem OpRow.patterns_agree (hr : r.matches w = true) (hq : q.matches w = true) :
    r.pattern &&& q.mask = q.pattern &&& r.mask := by
  rw [OpRow.matches, beq_iff_eq] at hr hq
  rw [← hr, ← hq, BitVec.and_assoc, BitVec.and_assoc, BitVec.and_comm r.mask]

/-- The check of the table: two of its rows always differ in a bit that both test. -/
theorem opRows_separated :
    ∀ r ∈ opRows, ∀ q ∈ opRows, r.pattern &&& q.mask = q.pattern &&& r.mask → r = q := by
  decide

/-- The bits each row tests: the leading nibble, and where the decoder looks further, the part it looks at. -/
theorem opRows_masks : ∀ r ∈ opRows, d1 r.mask = 0xF#4 ∧ (d1 r.pattern = 0x0#4 → r.mask = 0xFFFF#16) ∧
    (d1 r.pattern ∈ [0x5#4, 0x8#4, 0x9#4] → d4 r.mask = 0xF#4) ∧
    (d1 r.pattern ∈ [0xE#4, 0xF#4] → lowByte r.mask = 0xFF#8) := by
  decide

theorem opRows_patterns_legal : ∀ r ∈ opRows, decodeWord r.pattern ≠ none := by
  decide

/-- A field that the row tests whole is the pattern's. -/
theorem OpRow.extractLsb'_eq_pattern (h : r.matches w = true) {start len : Nat}
    (hmask : r.mask.extractLsb' start len = BitVec.allOnes len) :
    w.extractLsb' start len = r.pattern.extractLsb' start len := by
  rw [OpRow.matches, beq_iff_eq] at h
  rw [← h, BitVec.extractLsb'_and, hmask, BitVec.and_allOnes]

/-- The decoder refuses a word for its leading nibble and the part it then looks at, so another word that shares these
is refused too. -/
theorem decodeWord_eq_none_of_fields {v w : Word} (hnone : decodeWord w = none) (h1 : d1 w = d1 v)
    (h0 : d1 v = 0x0#4 → w = v) (h4 : d1 v ∈ [0x5#4, 0x8#4, 0x9#4] → d4 w = d4 v)
    (hb : d1 v ∈ [0xE#4, 0xF#4] → lowByte w = lowByte v) : decodeWord v = none := by
  rw [illegalWordsByLeadingNibble, h1] at hnone
  rw [illegalWordsByLeadingNibble]
  rcases hnone with ⟨hd, hw⟩ | ⟨hd, hk⟩ | ⟨hd, hk⟩ | ⟨hd, hk⟩ | ⟨hd, hk⟩
  · exact .inl ⟨hd, h0 hd ▸ hw⟩
  · have hmem : d1 v ∈ [0x5#4, 0x8#4, 0x9#4] := by rcases hd with hd | hd <;> simp [hd]
    exact .inr (.inl ⟨hd, h4 hmem ▸ hk⟩)
  · exact .inr (.inr (.inl ⟨hd, h4 (by simp [hd]) ▸ hk⟩))
  · exact .inr (.inr (.inr (.inl ⟨hd, hb (by simp [hd]) ▸ hk⟩)))
  · exact .inr (.inr (.inr (.inr ⟨hd, hb (by simp [hd]) ▸ hk⟩)))

/-- A word that matches a row shares with the row's pattern all that the decoder looks at. -/
theorem OpRow.matches_eq_false_of_decode_none (hr : r ∈ opRows) (hnone : decodeWord w = none) :
    r.matches w = false := by
  by_contra hmatch
  rw [Bool.not_eq_false] at hmatch
  obtain ⟨hmask1, hmask0, hmask4, hmaskb⟩ := opRows_masks r hr
  refine opRows_patterns_legal r hr (decodeWord_eq_none_of_fields hnone ?_ (fun hd => ?_) (fun hd => ?_) fun hd => ?_)
  · exact OpRow.extractLsb'_eq_pattern hmatch hmask1
  · rw [OpRow.matches, beq_iff_eq, hmask0 hd] at hmatch
    exact BitVec.and_allOnes.symm.trans hmatch
  · exact OpRow.extractLsb'_eq_pattern hmatch (hmask4 hd)
  · exact OpRow.extractLsb'_eq_pattern hmatch (hmaskb hd)

end OpcodeMap

/-- Settles O4, from the check of the table. -/
theorem opcodeRowsAreDisjoint : Obligations.OpcodeRowsAreDisjoint := by
  intro w r q hr hq hrw hqw
  exact opRows_separated r hr q hq (OpRow.patterns_agree hrw hqw)

/-- Settles O3: a decoded word is its instruction's own, which lies in the row of the mnemonic; so a word of no row
decodes to nothing, and an illegal word has no row. -/
theorem decoderFollowsOpcodeMap : Obligations.DecoderFollowsOpcodeMap := by
  intro w
  have hrow (i : Instr) (h : decodeWord w = some i) :
      ∃ r ∈ opRows, r.mnemonic = i.mnemonic ∧ r.matches w = true := by
    have hstmt := Laws.EncodingInOpcodeMap.encoding_matches_row i
    rwa [Laws.EncodingInOpcodeMap.Statement, encodeOfDecodeIsTheWord w i h] at hstmt
  refine ⟨hrow, fun hnone r hr => OpRow.matches_eq_false_of_decode_none hr hnone, fun hno => ?_⟩
  refine Option.eq_none_iff_forall_ne_some.mpr fun i h => ?_
  obtain ⟨r, hr, -, hmatch⟩ := hrow i h
  simp [hno r hr] at hmatch

/-- Settles O6, by running the decoder. -/
theorem sampleWordsDecode : Obligations.SampleWordsDecode := by
  unfold Obligations.SampleWordsDecode
  decide

theorem decodeWord_eq_none_of_illegal {w : Word} (h : legalWord w = false) : decodeWord w = none := by
  rw [(decoderFollowsOpcodeMap w).2]
  simpa [legalWord] using h

/-- Settles O10: an illegal word decodes to nothing, by the opcode map. -/
theorem illegalWordRaises : Obligations.IllegalWordRaises := by
  intro s hreq hpc hillegal
  have hdecode := decodeWord_eq_none_of_illegal hillegal
  have hfetch : s.fetch = some (s.readByte s.pc.toNat ++ s.readByte (s.pc.toNat + 1)) := by
    rw [State.fetch_eq, if_pos (by omega), wordOfBytes]
  rw [step_of_no_request hreq]
  simp [stepInstr, hfetch, hdecode, raised, State.setStatus]

end Sys2Proof

/-! One STEP_INSTR (40_step.md R121 to R130): what is fetched, how each instruction ends, and what it does not read. -/

namespace Sys2Proof.Machine

open Sys2Proof Sys2Proof.Safety

/-! How the instructions that branch end, branch by branch -/

section Branches

variable {s : State} {x : Nibble} {k : Fin 16}

theorem execRet_of_empty (h : s.sp.val = 0) : exec .ret s = s.raise .stackUnderflow (encode .ret) := by
  show execRet s = _
  rw [execRet, s.pop_none.mpr h]

theorem execCall_of_full {nnn : Addr} (h : s.sp.val = 16) :
    exec (.call nnn) s = s.raise .stackOverflow (encode (.call nnn)) := by
  show execCall nnn s = _
  rw [execCall, (s.push_none _).mpr h]

theorem execSkp_of_key (h : keyIndex (s.reg x) = some k) : exec (.skp x) s = (s.skipIf s.keys[k]).commit := by
  show execSkp x s = _
  rw [execSkp, h]

theorem execSkp_of_no_key (h : keyIndex (s.reg x) = none) :
    exec (.skp x) s = s.raise .keyIndexOutOfRange (encode (.skp x)) := by
  show execSkp x s = _
  rw [execSkp, h]

theorem execSknp_of_key (h : keyIndex (s.reg x) = some k) :
    exec (.sknp x) s = (s.skipIf (!s.keys[k])).commit := by
  show execSknp x s = _
  rw [execSknp, h]

theorem execSknp_of_no_key (h : keyIndex (s.reg x) = none) :
    exec (.sknp x) s = s.raise .keyIndexOutOfRange (encode (.sknp x)) := by
  show execSknp x s = _
  rw [execSknp, h]

theorem execLdVK_of_pressed (h : s.firstKey = some k) :
    exec (.ldVK x) s = (s.setReg x (BitVec.ofNat 8 k.val)).advance.commit := by
  show execLdVK x s = _
  rw [execLdVK, h]

theorem execLdVK_of_released (h : s.firstKey = none) : exec (.ldVK x) s = s.commit := by
  show execLdVK x s = _
  rw [execLdVK, h]

theorem State.firstKey_eq_none_of_released (h : ∀ k : Fin 16, s.keys[k] = false) : s.firstKey = none :=
  List.find?_eq_none.mpr fun k _ => by simp [h k]

/-- A stack that is not empty has a top entry. -/
theorem State.exists_top_of_sp_ne_zero (h : s.sp.val ≠ 0) : ∃ j : Fin 16, s.sp.val = j.val + 1 :=
  ⟨⟨s.sp.val - 1, by omega⟩, by simp only; omega⟩

/-- A stack that is not full has a free entry. -/
theorem State.exists_free_of_sp_ne_full (h : s.sp.val ≠ 16) : ∃ j : Fin 16, s.sp.val = j.val :=
  ⟨⟨s.sp.val, by omega⟩, rfl⟩

theorem exists_keyIndex_of_lt {v : Byte} (h : ¬16 ≤ v.toNat) : ∃ k, keyIndex v = some k :=
  ⟨⟨v.toNat, by omega⟩, (keyIndex_eq_some _ _).mpr rfl⟩

end Branches

/-! Every instruction ends as its own check says (R127) -/

/-- `i` raises in `s` the error its own check names, and completes where the check names none. -/
def EndsAsChecked (i : Instr) (s : State) : Prop :=
  (∀ code, ownError i s = some code → exec i s = s.raise code (encode i)) ∧
    (ownError i s = none → ∃ u : State, exec i s = u.commit)

namespace EndsAsChecked

variable {i : Instr} {s u : State} {code : Code} {bad : Prop} [Decidable bad]

theorem of_no_check (hown : ownError i s = none) (hexec : exec i s = u.commit) : EndsAsChecked i s := by
  refine ⟨fun code hcode => ?_, fun _ => ⟨u, hexec⟩⟩
  rw [hown] at hcode
  cases hcode

theorem of_check (hown : ownError i s = if bad then some code else none)
    (hbad : bad → exec i s = s.raise code (encode i)) (hgood : ¬bad → ∃ u : State, exec i s = u.commit) :
    EndsAsChecked i s := by
  refine ⟨fun _ herror => ?_, fun hnone => ?_⟩
  · rw [hown] at herror
    split_ifs at herror with h
    obtain rfl := Option.some.inj herror
    exact hbad h
  · rw [hown] at hnone
    split_ifs at hnone with h
    exact hgood h

/-- The instructions that check a byte range write the check as an `if`. -/
theorem of_range_check {good : Prop} [Decidable good] (hown : ownError i s = if bad then some code else none)
    (hexec : exec i s = if good then u.commit else s.raise code (encode i)) (hiff : good ↔ ¬bad) :
    EndsAsChecked i s := by
  refine of_check hown (fun h => ?_) fun h => ⟨u, ?_⟩
  · rw [hexec, if_neg (hiff.not_left.mpr h)]
  · rw [hexec, if_pos (hiff.mpr h)]

/-- All 35 instructions. -/
theorem of_exec (i : Instr) (s : State) : EndsAsChecked i s := by
  cases i with
  | ret =>
    refine of_check rfl execRet_of_empty fun h => ?_
    obtain ⟨j, hj⟩ := State.exists_top_of_sp_ne_zero h
    exact ⟨{ s with sp := j.castSucc, pc := s.stack[j] }, execRet_of_sp s j hj⟩
  | call nnn =>
    refine of_check rfl execCall_of_full fun h => ?_
    obtain ⟨j, hj⟩ := State.exists_free_of_sp_ne_full h
    exact ⟨{ s with stack := s.stack.set j.val (s.pc + 2), sp := j.succ, pc := zextAddr nnn },
      execCall_of_sp nnn s j hj⟩
  | skp x =>
    refine of_check rfl (fun h => execSkp_of_no_key ((keyIndex_eq_none _).mpr h)) fun h => ?_
    obtain ⟨k, hk⟩ := exists_keyIndex_of_lt h
    exact ⟨_, execSkp_of_key hk⟩
  | sknp x =>
    refine of_check rfl (fun h => execSknp_of_no_key ((keyIndex_eq_none _).mpr h)) fun h => ?_
    obtain ⟨k, hk⟩ := exists_keyIndex_of_lt h
    exact ⟨_, execSknp_of_key hk⟩
  | drw x y n =>
    refine of_range_check rfl rfl ?_
    rw [Bool.or_eq_true, decide_eq_true_iff, rangeOk_iff, State.dataAddr]
    bv_omega
  | ldBV | ldMemV | ldVMem =>
    refine of_range_check rfl rfl ?_
    rw [rangeOk_iff, State.dataAddr]
    omega
  | ldVK x =>
    cases hk : s.firstKey with
    | none => exact of_no_check rfl (execLdVK_of_released hk)
    | some k => exact of_no_check rfl (execLdVK_of_pressed hk)
  | _ => exact of_no_check rfl rfl

end EndsAsChecked

/-- Settles O13, instruction by instruction. -/
theorem errorsOfEachInstruction : Obligations.ErrorsOfEachInstruction := by
  intro i s
  obtain ⟨hraise, hcommit⟩ := EndsAsChecked.of_exec i s
  refine ⟨hraise, fun hown => ?_⟩
  obtain ⟨u, hu⟩ := hcommit hown
  exact ⟨_, hu, rfl⟩

/-- No check names OK as its error. -/
theorem ownError_ne_ok (i : Instr) (s : State) : ownError i s ≠ some .ok := by
  cases i with
  | ret | call | skp | sknp | drw | ldBV | ldMemV | ldVMem =>
    unfold ownError
    split_ifs <;> simp
  | _ => simp [ownError]

/-! What is fetched (R121) -/

section Fetch

variable {s : State}

theorem State.fetch_of_le (h : s.pc.toNat + 1 ≤ 4095) :
    s.fetch = some (s.readByte s.pc.toNat ++ s.readByte (s.pc.toNat + 1)) := by
  rw [State.fetch_eq, if_pos (by omega), wordOfBytes]

theorem State.fetch_of_gt (h : 4095 ≤ s.pc.toNat) : s.fetch = none := by
  rw [State.fetch_eq, if_neg (by omega)]

/-- The word STATUS names in an error: the fetched one, or 0 where the fetch failed (R36). -/
theorem State.fetch_getD_zero : s.fetch.getD 0 =
    if s.pc.toNat + 1 ≤ 4095 then s.readByte s.pc.toNat ++ s.readByte (s.pc.toNat + 1) else 0 := by
  split_ifs with h
  · rw [State.fetch_of_le h, Option.getD_some]
  · rw [State.fetch_of_gt (by omega), Option.getD_none]

/-- A STEP_INSTR completes, or it raises an error and names the fetched word. -/
theorem stepInstr_commit_or_raise (s : State) :
    (∃ u : State, stepInstr s = u.commit) ∨ ∃ code ≠ .ok, stepInstr s = s.raise code (s.fetch.getD 0) := by
  obtain ⟨hfetch, he⟩ | ⟨w, hfetch, -, he⟩ | ⟨w, i, hfetch, hdecode, he⟩ := stepInstr_cases s <;> rw [he, hfetch]
  · exact .inr ⟨.outOfBoundsAccess, by decide, rfl⟩
  · exact .inr ⟨.unimplementedInstruction, by decide, rfl⟩
  · obtain ⟨hraise, hcommit⟩ := EndsAsChecked.of_exec i s
    cases hown : ownError i s with
    | none => exact .inl (hcommit hown)
    | some code =>
      have hw : encode i = w := encodeOfDecodeIsTheWord w i hdecode
      exact .inr ⟨code, fun hok => ownError_ne_ok i s (hok ▸ hown), hw ▸ hraise code hown⟩

end Fetch

/-- Settles O11: a step that does not complete raises, and the word it names is the fetched one. -/
theorem failingStepChangesOnlyStatus : Obligations.FailingStepChangesOnlyStatus := by
  intro s t hreq hstep herror
  rw [step_of_no_request hreq] at hstep
  rw [← State.fetch_getD_zero]
  obtain ⟨u, hu⟩ | ⟨code, -, hraise⟩ := stepInstr_commit_or_raise s
  · obtain rfl := Host.Outcome.next.inj (hu.symm.trans hstep)
    exact absurd rfl herror
  · obtain rfl := Host.Outcome.next.inj (hraise.symm.trans hstep)
    rfl

/-- Settles O12: a step that reports OK has completed, and an Fx0A that waits completes too. -/
theorem stepWithoutErrorReportsSuccess : Obligations.StepWithoutErrorReportsSuccess := by
  refine ⟨fun s t hreq hstep hok => ?_, fun s x hkeys =>
    ⟨_, execLdVK_of_released (State.firstKey_eq_none_of_released hkeys), rfl, rfl⟩⟩
  rw [step_of_no_request hreq] at hstep
  obtain ⟨u, hu⟩ | ⟨code, hcode, hraise⟩ := stepInstr_commit_or_raise s
  · obtain rfl := Host.Outcome.next.inj (hu.symm.trans hstep)
    rfl
  · obtain rfl := Host.Outcome.next.inj (hraise.symm.trans hstep)
    exact absurd hok hcode

/-- Settles O7, by the word fetched. -/
theorem stepRunsDecodedInstruction : Obligations.StepRunsDecodedInstruction :=
  fun _ _ hreq hpc hdecode => step_of_fetch hreq (State.fetch_of_le hpc) hdecode

/-- Settles O9: nothing is fetched there. -/
theorem fetchOutsideMemoryRaises : Obligations.FetchOutsideMemoryRaises := by
  intro s hreq hpc
  rw [step_of_no_request hreq, stepInstr, State.fetch_of_gt hpc]
  rfl

/-! A word placed at `pc` is fetched -/

theorem State.fetch_writeBytes_word (s : State) (w : Word) (h : s.pc.toNat ≤ 4094) :
    (s.writeBytes s.pc.toNat [highByte w, lowByte w]).fetch = some w := by
  have hread (b : Nat) := s.writeBytes_readByte s.pc.toNat b [highByte w, lowByte w] (by simp; omega)
  rw [State.fetch_eq, State.writeBytes_pc, if_pos h, hread, hread]
  simp

theorem State.placeWord_fetch (s : State) (w : Word) : (s.placeWord w).fetch = some w := by
  refine State.fetch_writeBytes_word (if rangeOk s.pc.toNat 2 then s else s.setPc 512) w ?_
  split_ifs with h
  · rw [rangeOk_iff] at h
    omega
  · simp

/-- The decoder of table words is the decoder of words. -/
theorem decodeTableWord_eq (nbits w : Nat) :
    decodeTableWord nbits w = decodeWord (BitVec.ofNat 16 (w % 2 ^ nbits)) := by
  simp only [decodeTableWord, decode, wordOfBytes_bytes]
  cases decodeWord (BitVec.ofNat 16 (w % 2 ^ nbits)) <;> rfl

/-- Settles O8: the next fetch reads the two bytes that were placed. -/
theorem placedWordRunsNext : Obligations.PlacedWordRunsNext := by
  intro s nbits w i hdecode
  rw [decodeTableWord_eq] at hdecode
  exact step_of_fetch rfl (s.placeWord_fetch _) hdecode

/-! Only Cxnn reads the draw (R129, R130) -/

section Draws

variable {s u : State} {d : Nat}

/-- The state with the count of draws replaced by `d`. -/
def State.withDraws (s : State) (d : Nat) : State := { s with draws := d }

/-- `i` does the same from `s` whatever draws remain. -/
def IgnoresDraws (i : Instr) (s : State) (d : Nat) : Prop :=
  ∃ t, exec i s = .next t ∧ exec i (s.withDraws d) = .next (t.withDraws d)

/-- The shape of the instructions that check a byte range. -/
theorem IgnoresDraws.of_commit_or_raise {i : Instr} {p : Prop} [Decidable p] {code : Code} {word : Word}
    (h : exec i s = if p then u.commit else s.raise code word)
    (hd : exec i (s.withDraws d) = if p then (u.withDraws d).commit else (s.withDraws d).raise code word) :
    IgnoresDraws i s d := by
  unfold IgnoresDraws
  rw [h, hd]
  split
  · exact ⟨_, rfl, rfl⟩
  · exact ⟨_, rfl, rfl⟩

theorem skipIf_commit_draws (s : State) (cond : Bool) (d : Nat) :
    ((s.withDraws d).skipIf cond).commit = .next (((s.skipIf cond).setStatus Status.success).withDraws d) := by
  cases cond <;> rfl

theorem ret_ignoresDraws : IgnoresDraws .ret s d := by
  by_cases h : s.sp.val = 0
  · exact ⟨_, execRet_of_empty h, execRet_of_empty h⟩
  · obtain ⟨j, hj⟩ := State.exists_top_of_sp_ne_zero h
    exact ⟨_, execRet_of_sp s j hj, execRet_of_sp (s.withDraws d) j hj⟩

theorem call_ignoresDraws {nnn : Addr} : IgnoresDraws (.call nnn) s d := by
  by_cases h : s.sp.val = 16
  · exact ⟨_, execCall_of_full h, execCall_of_full h⟩
  · obtain ⟨j, hj⟩ := State.exists_free_of_sp_ne_full h
    exact ⟨_, execCall_of_sp nnn s j hj, execCall_of_sp nnn (s.withDraws d) j hj⟩

theorem skp_ignoresDraws {x : Nibble} : IgnoresDraws (.skp x) s d := by
  cases h : keyIndex (s.reg x) with
  | none => exact ⟨_, execSkp_of_no_key h, execSkp_of_no_key h⟩
  | some k => exact ⟨_, execSkp_of_key h, (execSkp_of_key (s := s.withDraws d) h).trans (skipIf_commit_draws s _ d)⟩

theorem sknp_ignoresDraws {x : Nibble} : IgnoresDraws (.sknp x) s d := by
  cases h : keyIndex (s.reg x) with
  | none => exact ⟨_, execSknp_of_no_key h, execSknp_of_no_key h⟩
  | some k => exact ⟨_, execSknp_of_key h, (execSknp_of_key (s := s.withDraws d) h).trans (skipIf_commit_draws s _ d)⟩

theorem ldVK_ignoresDraws {x : Nibble} : IgnoresDraws (.ldVK x) s d := by
  cases h : s.firstKey with
  | none => exact ⟨_, execLdVK_of_released h, execLdVK_of_released h⟩
  | some k => exact ⟨_, execLdVK_of_pressed h, execLdVK_of_pressed h⟩

end Draws

/-- Settles O15: each instruction but Cxnn takes the same branch and makes the same updates. -/
theorem onlyRandomReadsTheDraw : Obligations.OnlyRandomReadsTheDraw := by
  intro i s d hrnd
  show IgnoresDraws i s d
  cases i with
  | rnd x nn => exact absurd rfl (hrnd x nn)
  | ret => exact ret_ignoresDraws
  | call => exact call_ignoresDraws
  | skp => exact skp_ignoresDraws
  | sknp => exact sknp_ignoresDraws
  | ldVK => exact ldVK_ignoresDraws
  | seVB | sneVB | seVV | sneVV => exact ⟨_, rfl, skipIf_commit_draws s _ d⟩
  | drw | ldBV | ldMemV | ldVMem => exact .of_commit_or_raise rfl rfl
  | _ => exact ⟨_, rfl, rfl⟩

/-! The run a claim sees (R128) -/

theorem reportedFault_eq_none_iff (st : Status) : reportedFault st = none ↔ st.code = .ok := by
  unfold reportedFault
  split <;> simp_all

theorem checkedStep_of_next {s u : State} (h : step s = .next u) (hok : u.status.code = .ok) :
    checkedStep s = .next u := by
  unfold checkedStep
  simp only [h, (reportedFault_eq_none_iff _).mpr hok]

/-- Settles O18, by the outcome of the step and the fault it reports. -/
theorem checkedStepEndsAtAnError : Obligations.CheckedStepEndsAtAnError := by
  intro s t
  refine ⟨fun h => ?_, fun ⟨hstep, hok⟩ => checkedStep_of_next hstep hok⟩
  unfold checkedStep at h
  split at h
  next u hstep =>
    split at h
    next hnone =>
      obtain rfl := Host.Outcome.next.inj h
      exact ⟨hstep, (reportedFault_eq_none_iff _).mp hnone⟩
    next => cases h
  next => cases h
  next => cases h

end Sys2Proof.Machine


/-! Control flow (41_control_flow.md): the instructions that write `pc`, the stack and STATUS alone. -/

namespace Sys2Proof.Machine

open Sys2Proof Sys2Proof.Safety

section ControlFlow

variable {s t : State} {i : Instr}

/-- What an instruction does that moves `pc` to `target` and completes: the rest of the state is unchanged. -/
theorem exec_of_setPc_commit {target : Word} (h : exec i s = (s.setPc target).commit) :
    ∃ t, exec i s = .next t ∧ t.status = ⟨.ok, 0, 0⟩ ∧ t.pc = target ∧ onlyRegs [] s t :=
  ⟨_, h, rfl, rfl, fun _ _ => rfl, rfl, fun _ => rfl, ⟨rfl, fun _ => rfl⟩, fun _ _ => rfl, ⟨rfl, rfl⟩,
    ⟨fun _ => rfl, rfl, rfl⟩, rfl⟩

/-- A skip passes over exactly one 2-byte word (R144). -/
theorem exec_of_skipIf_commit {cond : Bool} {p : Prop} [Decidable p] (h : exec i s = (s.skipIf cond).commit)
    (hcond : cond = true ↔ p) :
    ∃ t, exec i s = .next t ∧ t.status = ⟨.ok, 0, 0⟩ ∧ t.pc = (if p then s.pc + 4 else s.pc + 2) ∧
      onlyRegs [] s t := by
  have hfour : s.pc + 2 + 2 = s.pc + 4 := BitVec.add_assoc ..
  rw [State.skipIf_eq, hfour] at h
  simpa only [hcond] using exec_of_setPc_commit h

/-- The frame of an instruction that writes the stack, `pc` and STATUS alone. -/
theorem frame_of_stack_update (h : t = { s with stack := t.stack, sp := t.sp, pc := t.pc, status := t.status }) :
    sameRegsBut [] s t ∧ t.I = s.I ∧ sameMemory s t ∧ sameDisplay s t ∧ sameTimers s t ∧ sameOutside s t := by
  rw [h]
  exact ⟨fun _ _ => rfl, rfl, fun _ => rfl, fun _ _ => rfl, ⟨rfl, rfl⟩, ⟨fun _ => rfl, rfl, rfl⟩, rfl⟩

end ControlFlow

/-- Settles O25: the advance alone moves `pc`, and 0000, 00E0 and 00EE are the legal words of leading nibble 0. -/
theorem nopResult : Obligations.NopResult :=
  ⟨decodeOfEncodeIsTheInstruction .nop,
    fun w h1 hw => (illegalWordsByLeadingNibble w).mpr (.inl ⟨h1, by simpa using hw⟩),
    fun _ => exec_of_setPc_commit rfl⟩

/-- Settles O26, by whether the stack is empty. -/
theorem returnResult : Obligations.ReturnResult :=
  ⟨decodeOfEncodeIsTheInstruction .ret, fun s =>
    ⟨fun j hsp => ⟨_, execRet_of_sp s j hsp, rfl, rfl, rfl, fun _ => rfl, frame_of_stack_update rfl⟩,
    execRet_of_empty⟩⟩

/-- Settles O27: a 12-bit target is the same number as an address. -/
theorem jumpResult : Obligations.JumpResult := by
  intro nnn s
  obtain ⟨t, hexec, hstatus, hpc, hframe⟩ := exec_of_setPc_commit (i := .jp nnn) (s := s) rfl
  exact ⟨decodeOfEncodeIsTheInstruction (.jp nnn), t, hexec, hstatus, hpc ▸ zextAddr_toNat nnn, hframe⟩

/-- Settles O28, by whether the stack is full: a push writes the entry at `sp` and no other. -/
theorem callResult : Obligations.CallResult := by
  intro nnn s
  refine ⟨decodeOfEncodeIsTheInstruction (.call nnn), fun j hsp => ?_, execCall_of_full⟩
  have hother (k : Fin 16) (hk : k ≠ j) : (s.stack.set j.val (s.pc + 2))[k] = s.stack[k] :=
    Vector.getElem_set_ne _ _ fun h => hk (Fin.ext h.symm)
  exact ⟨_, execCall_of_sp nnn s j hsp, rfl, zextAddr_toNat nnn, rfl, Vector.getElem_set_self _, hother,
    frame_of_stack_update rfl⟩

/-- Settles O30: the two are skips on opposite conditions. -/
theorem skipOnByteResult : Obligations.SkipOnByteResult :=
  fun x nn _ => ⟨decodeOfEncodeIsTheInstruction (.seVB x nn), decodeOfEncodeIsTheInstruction (.sneVB x nn),
    exec_of_skipIf_commit rfl beq_iff_eq, exec_of_skipIf_commit rfl bne_iff_ne⟩

/-- Settles O31: a skip, and the words `9xyk` with `k ≠ 0` are in the list of illegal words. -/
theorem skipOnUnequalRegistersResult : Obligations.SkipOnUnequalRegistersResult :=
  fun x y _ => ⟨decodeOfEncodeIsTheInstruction (.sneVV x y),
    fun k hk => (illegalWordsByLeadingNibble _).mpr (.inr (.inl ⟨.inr (by simp), by simpa using hk⟩)),
    exec_of_skipIf_commit rfl bne_iff_ne⟩

/-- Settles O32: the parameter chooses which of the two comparisons is the skip's condition. -/
theorem registerCompareSkipBothPolarities : Obligations.RegisterCompareSkipBothPolarities := by
  intro x y s
  obtain ⟨t, hexec, hstatus, hpc, hframe⟩ := exec_of_skipIf_commit (i := .seVV x y) (s := s) rfl Iff.rfl
  refine ⟨decodeOfEncodeIsTheInstruction (.seVV x y), t, hexec, hstatus, hframe, fun hequal => ?_, fun hunequal => ?_⟩
  · simpa only [hequal, ↓reduceIte, beq_iff_eq] using hpc
  · simpa only [hunequal, Bool.false_eq_true, ↓reduceIte, bne_iff_ne] using hpc

/-- Settles O33: the sum of a byte and a 12-bit number does not wrap at 16 bits. -/
theorem offsetJumpResult : Obligations.OffsetJumpResult := by
  intro nnn s
  obtain ⟨t, hexec, hstatus, hpc, hframe⟩ := exec_of_setPc_commit (i := .jpV0 nnn) (s := s) rfl
  exact ⟨decodeOfEncodeIsTheInstruction (.jpV0 nnn), t, hexec, hstatus, hpc ▸ offsetTarget_toNat _ nnn, hframe⟩

end Sys2Proof.Machine


/-! Register arithmetic and logic (42_alu.md): the instructions that write registers, `pc` and STATUS, and Cxnn, which
consumes a draw as well. -/

namespace Sys2Proof.Machine

open Sys2Proof Sys2Proof.Safety

/-! The flags as numbers (R171) -/

theorem flagByte_toNat (b : Bool) : (flagByte b).toNat = b.toNat := by cases b <;> rfl

theorem carryFlag_toNat (a b : Byte) : (carryFlag a b).toNat = if 256 ≤ a.toNat + b.toNat then 1 else 0 := by
  rw [carryFlag, flagByte_toNat]
  by_cases h : 256 ≤ a.toNat + b.toNat <;> simp [h]

theorem noBorrowFlag_toNat (a b : Byte) : (noBorrowFlag a b).toNat = if a.toNat < b.toNat then 0 else 1 := by
  rw [noBorrowFlag, flagByte_toNat]
  by_cases h : a.toNat < b.toNat <;> simp [h]

theorem shiftRightFlag_toNat (a : Byte) : (shiftRightFlag a).toNat = a.toNat % 2 := by
  rw [shiftRightFlag, flagByte_toNat, BitVec.getLsbD, Nat.toNat_testBit, pow_zero, Nat.div_one]

/-- Bit 7 is the whole quotient, because a byte is below 256. -/
theorem shiftLeftFlag_toNat (a : Byte) : (shiftLeftFlag a).toNat = a.toNat / 128 := by
  rw [shiftLeftFlag, flagByte_toNat, BitVec.getLsbD, Nat.toNat_testBit]
  omega

/-! The results as numbers (R167 to R170) -/

theorem byte_sub_toNat (a b : Byte) : ((a - b).toNat : Int) = (a.toNat - b.toNat : Int) % 256 := by
  rw [BitVec.toNat_sub]
  omega

theorem byte_shiftRight_one_toNat (a : Byte) : (a >>> 1).toNat = a.toNat / 2 := by
  rw [BitVec.toNat_ushiftRight, Nat.shiftRight_eq_div_pow, pow_one]

theorem byte_shiftLeft_one_toNat (a : Byte) : (a <<< 1).toNat = a.toNat * 2 % 256 := by
  rw [BitVec.toNat_shiftLeft, Nat.shiftLeft_eq, pow_one]

section Alu

variable {s t : State} {i : Instr} {x : Nibble} {v r f : Byte} {written : List Nibble}

/-! What the write-backs leave in the registers, and what they leave unchanged -/

theorem State.setReg_reg_same : (s.setReg x v).reg x = v := by rw [State.setReg_reg, if_pos rfl]

theorem State.setReg_sameRegsBut : sameRegsBut [x] s (s.setReg x v) := by
  intro k hk
  rw [State.setReg_reg, if_neg (List.ne_of_not_mem_cons hk)]

theorem State.setRegFlag_reg_result (hx : x ≠ 0xF#4) : (s.setRegFlag x r f).reg x = r := by
  rw [State.setRegFlag_reg, if_neg hx, if_pos rfl]

/-- The flag is written last, so it stands also where `x = 15`. -/
theorem State.setRegFlag_reg_flag : (s.setRegFlag x r f).reg 0xF#4 = f := by
  rw [State.setRegFlag_reg, if_pos rfl]

theorem State.setRegFlag_sameRegsBut : sameRegsBut [x, 0xF#4] s (s.setRegFlag x r f) := by
  intro k hk
  obtain ⟨hx, hF⟩ : k ≠ x ∧ k ≠ 0xF#4 := by simpa using hk
  rw [State.setRegFlag_reg, if_neg hF, if_neg hx]

/-- The frame of an instruction that writes registers, `pc`, STATUS and the count of draws alone. -/
theorem frame_of_register_update (h : t = { s with V := t.V, pc := t.pc, status := t.status, draws := t.draws }) :
    t.I = s.I ∧ sameMemory s t ∧ sameStack s t ∧ sameDisplay s t ∧ sameTimers s t ∧ sameHost s t := by
  rw [h]
  exact ⟨rfl, fun _ => rfl, ⟨rfl, fun _ => rfl⟩, fun _ _ => rfl, ⟨rfl, rfl⟩, ⟨fun _ => rfl, rfl, rfl⟩⟩

/-- The frame of one that draws nothing as well. -/
theorem onlyRegs_of_register_update (h : t = { s with V := t.V, pc := t.pc, status := t.status })
    (hregs : sameRegsBut written s t) : onlyRegs written s t := by
  obtain ⟨hI, hmem, hstack, hdisp, htimers, hhost⟩ := frame_of_register_update (s := s) (t := t) (by rw [h])
  have hdraws : t.draws = s.draws := by rw [h]
  exact ⟨hregs, hI, hmem, hstack, hdisp, htimers, hhost, hdraws⟩

/-! How the instructions with one write, and those with a flag after it, complete (R172, R23) -/

theorem exec_of_setReg_commit (h : exec i s = (s.setReg x v).advance.commit) :
    ∃ t, exec i s = .next t ∧ t.status = ⟨.ok, 0, 0⟩ ∧ t.pc = s.pc + 2 ∧ t.reg x = v ∧ onlyRegs [x] s t :=
  ⟨_, h, rfl, rfl, State.setReg_reg_same, onlyRegs_of_register_update rfl State.setReg_sameRegsBut⟩

theorem exec_of_bitwise_commit {bits : Nat → Bool} (h : exec i s = (s.setReg x v).advance.commit)
    (hbits : ∀ b, v.getLsbD b = bits b) :
    ∃ t, exec i s = .next t ∧ t.status = ⟨.ok, 0, 0⟩ ∧ t.pc = s.pc + 2 ∧
      (∀ b, (t.reg x).getLsbD b = bits b) ∧ onlyRegs [x] s t := by
  obtain ⟨t, hexec, hstatus, hpc, rfl, hframe⟩ := exec_of_setReg_commit h
  exact ⟨t, hexec, hstatus, hpc, hbits, hframe⟩

theorem exec_of_setRegFlag_commit {n m : Nat} (h : exec i s = (s.setRegFlag x r f).advance.commit)
    (hr : r.toNat = n) (hf : f.toNat = m) :
    ∃ t, exec i s = .next t ∧ t.status = ⟨.ok, 0, 0⟩ ∧ t.pc = s.pc + 2 ∧
      (x ≠ 0xF#4 → (t.reg x).toNat = n) ∧ (t.reg 0xF#4).toNat = m ∧ onlyRegs [x, 0xF#4] s t :=
  ⟨_, h, rfl, rfl, fun hx => hr ▸ congrArg BitVec.toNat (State.setRegFlag_reg_result hx),
    hf ▸ congrArg BitVec.toNat State.setRegFlag_reg_flag,
    onlyRegs_of_register_update rfl State.setRegFlag_sameRegsBut⟩

/-- 8xy5 and 8xy7 are one subtraction with the operands in either order. -/
theorem exec_of_subtract_commit {a b : Byte}
    (h : exec i s = (s.setRegFlag x (a - b) (noBorrowFlag a b)).advance.commit) :
    ∃ t, exec i s = .next t ∧ t.status = ⟨.ok, 0, 0⟩ ∧ t.pc = s.pc + 2 ∧
      (x ≠ 0xF#4 → ((t.reg x).toNat : Int) = (a.toNat - b.toNat : Int) % 256) ∧
      (t.reg 0xF#4).toNat = (if a.toNat < b.toNat then 0 else 1) ∧ onlyRegs [x, 0xF#4] s t := by
  obtain ⟨t, hexec, hstatus, hpc, hresult, hflag, hframe⟩ :=
    exec_of_setRegFlag_commit h rfl (noBorrowFlag_toNat a b)
  exact ⟨t, hexec, hstatus, hpc, fun hx => hresult hx ▸ byte_sub_toNat a b, hflag, hframe⟩

end Alu

/-- Settles O34: one register write each; the sum of two bytes is modulo 256. -/
theorem byteLoadAndAddResult : Obligations.ByteLoadAndAddResult := by
  intro x nn s
  obtain ⟨t, hexec, hstatus, hpc, hsum, hframe⟩ := exec_of_setReg_commit (i := .addVB x nn) (s := s) rfl
  exact ⟨decodeOfEncodeIsTheInstruction (.ldVB x nn), decodeOfEncodeIsTheInstruction (.addVB x nn),
    exec_of_setReg_commit rfl, t, hexec, hstatus, hpc, hsum ▸ BitVec.toNat_add .., hframe⟩

/-- Settles O35: one register write each, the logic bit by bit. -/
theorem copyAndLogicResult : Obligations.CopyAndLogicResult :=
  fun x y _ => ⟨decodeOfEncodeIsTheInstruction (.ldVV x y), decodeOfEncodeIsTheInstruction (.or x y),
    decodeOfEncodeIsTheInstruction (.and x y), decodeOfEncodeIsTheInstruction (.xor x y),
    exec_of_setReg_commit rfl, exec_of_bitwise_commit rfl fun _ => BitVec.getLsbD_or,
    exec_of_bitwise_commit rfl fun _ => BitVec.getLsbD_and, exec_of_bitwise_commit rfl fun _ => BitVec.getLsbD_xor⟩

/-- Settles O36: the flag is the carry of the operands read at the start of the step. -/
theorem addWithCarryResult : Obligations.AddWithCarryResult :=
  fun x y _ => ⟨decodeOfEncodeIsTheInstruction (.addVV x y),
    exec_of_setRegFlag_commit rfl (BitVec.toNat_add ..) (carryFlag_toNat ..)⟩

/-- Settles O37: the same subtraction with the operands in both orders. -/
theorem subtractResult : Obligations.SubtractResult :=
  fun x y _ => ⟨decodeOfEncodeIsTheInstruction (.sub x y), decodeOfEncodeIsTheInstruction (.subn x y),
    exec_of_subtract_commit rfl, exec_of_subtract_commit rfl⟩

/-- Settles O38: neither meaning reads `y`, and the bit shifted out is a remainder or a quotient. -/
theorem shiftResult : Obligations.ShiftResult :=
  fun x y _ => ⟨decodeOfEncodeIsTheInstruction (.shr x y), decodeOfEncodeIsTheInstruction (.shl x y), rfl, rfl,
    exec_of_setRegFlag_commit rfl (byte_shiftRight_one_toNat _) (shiftRightFlag_toNat _),
    exec_of_setRegFlag_commit rfl (byte_shiftLeft_one_toNat _) (shiftLeftFlag_toNat _)⟩

/-- Settles O39: the register write is that of any draw, and the count of draws is the one other element written. -/
theorem randomResult : Obligations.RandomResult := by
  intro x nn s
  have hbits (b : Nat) : ((s.setReg x (Config.randByte s.draws &&& nn)).reg x).getLsbD b =
      ((Config.randByte s.draws).getLsbD b && nn.getLsbD b) := by
    rw [State.setReg_reg_same, BitVec.getLsbD_and]
  exact ⟨decodeOfEncodeIsTheInstruction (.rnd x nn), _, rfl, rfl, rfl, hbits, rfl, State.setReg_sameRegsBut,
    frame_of_register_update rfl⟩

end Sys2Proof.Machine


/-! Index register and memory transfer (43_index_memory.md): the instructions that write `I`, the stores Fx33 and Fx55,
and the load Fx65. -/

namespace Sys2Proof.Machine

open Sys2Proof Sys2Proof.Safety

section IndexMemory

variable {s : State} {i : Instr} {x k : Nibble}

/-! The values written to `I` (R191, R192) -/

/-- The sum wraps where it passes 65535 (D11). -/
theorem indexSum_toNat (I : Word) (v : Byte) : (I + zextByte v).toNat = (I.toNat + v.toNat) % 65536 := by
  rw [BitVec.toNat_add, zextByte_toNat]

/-- The address of a glyph is at most 5 × 255, so it needs no mask (D25). -/
theorem glyphAddr_toNat (v : Byte) : (BitVec.ofNat 16 (v.toNat * 5)).toNat = v.toNat * 5 := by
  rw [BitVec.toNat_ofNat, Nat.mod_eq_of_lt (by omega)]

/-- What an instruction does that writes `I` and completes. -/
theorem exec_of_setI_commit {v : Word} {n : Nat} (h : exec i s = (s.setI v).advance.commit) (hv : v.toNat = n) :
    ∃ t, exec i s = .next t ∧ t.status = ⟨.ok, 0, 0⟩ ∧ t.pc = s.pc + 2 ∧ t.I.toNat = n ∧
      sameRegsBut [] s t ∧ sameMemory s t ∧ sameStack s t ∧ sameDisplay s t ∧ sameTimers s t ∧ sameOutside s t :=
  ⟨_, h, rfl, rfl, hv, fun _ _ => rfl, fun _ => rfl, ⟨rfl, fun _ => rfl⟩, fun _ _ => rfl, ⟨rfl, rfl⟩,
    ⟨fun _ => rfl, rfl, rfl⟩, rfl⟩

/-! The range check and the error it raises (R65) -/

/-- The check of the bytes from `I` passes when the last of them, at `I + n`, is inside memory. -/
theorem State.rangeOk_dataAddr {n : Nat} (h : s.I.toNat + n ≤ 4095) : rangeOk (s.dataAddr 0) (n + 1) = true := by
  rw [rangeOk_iff, State.dataAddr]
  omega

theorem exec_raises_of_ownError {code : Code} (h : ownError i s = some code) :
    exec i s = .next (raised s code (encode i)) :=
  (errorsOfEachInstruction i s).1 code h

/-! The stores (R203, R204) -/

/-- The byte at offset `k` of a run stored from `I` is the k-th of the run (R206). -/
theorem State.writeBytes_readByte_dataAddr {bs : List Byte} (hfits : s.dataAddr 0 + bs.length ≤ 4096) {k : Nat}
    {b : Byte} (hb : bs[k]? = some b) : (s.writeBytes (s.dataAddr 0) bs).readByte (s.dataAddr k) = b := by
  have hle : s.dataAddr 0 ≤ s.dataAddr k := Nat.add_le_add_left (Nat.zero_le _) _
  have hoffset : s.dataAddr k - s.dataAddr 0 = k := Nat.add_sub_add_left ..
  rw [State.writeBytes_readByte _ _ _ _ hfits, if_pos hle, hoffset, hb, Option.getD_some]

/-- A run of bytes leaves those before and behind it as they were. -/
theorem State.writeBytes_readByte_outside {bs : List Byte} {a b : Nat} (hfits : a + bs.length ≤ 4096)
    (hb : b < a ∨ a + bs.length ≤ b) : (s.writeBytes a bs).readByte b = s.readByte b := by
  rw [State.writeBytes_readByte _ _ _ _ hfits]
  split_ifs with hle
  · rw [List.getElem?_eq_none (by omega), Option.getD_none]
  · rfl

/-- What an instruction does that stores `n + 1` bytes from `I` inside memory and completes. -/
theorem exec_of_store_commit {bs : List Byte} {n : Nat} (h : exec i s = (s.writeBytes (s.dataAddr 0) bs).advance.commit)
    (hlength : bs.length = n + 1) (hn : s.I.toNat + n ≤ 4095) :
    ∃ t, exec i s = .next t ∧ t.status = ⟨.ok, 0, 0⟩ ∧ t.pc = s.pc + 2 ∧
      (∀ k b, bs[k]? = some b → t.readByte (s.dataAddr k) = b) ∧
      (∀ a : Nat, a < s.dataAddr 0 ∨ s.dataAddr n < a → t.readByte a = s.readByte a) ∧
      sameRegsBut [] s t ∧ t.I = s.I ∧ sameStack s t ∧ sameDisplay s t ∧ sameTimers s t ∧ sameOutside s t := by
  have hfits : s.dataAddr 0 + bs.length ≤ 4096 := by
    rw [hlength, State.dataAddr]
    omega
  have hend : s.dataAddr 0 + bs.length = s.dataAddr n + 1 := by rw [hlength]; rfl
  have houtside (a : Nat) (ha : a < s.dataAddr 0 ∨ s.dataAddr n < a) :
      (s.writeBytes (s.dataAddr 0) bs).readByte a = s.readByte a :=
    State.writeBytes_readByte_outside hfits (by omega)
  exact ⟨_, h, rfl, rfl, fun _ _ hb => State.writeBytes_readByte_dataAddr hfits hb, houtside, fun _ _ => rfl, rfl,
    ⟨rfl, fun _ => rfl⟩, fun _ _ => rfl, ⟨rfl, rfl⟩, ⟨fun _ => rfl, rfl, rfl⟩, rfl⟩

/-- Fx33 completes when its last byte, at `I + 2`, is inside memory (R203). -/
theorem execLdBV_of_fits (h : s.I.toNat + 2 ≤ 4095) :
    exec (.ldBV x) s = (s.writeBytes (s.dataAddr 0) (decimalDigits (s.reg x))).advance.commit :=
  if_pos (State.rangeOk_dataAddr h)

/-! The load (R205) -/

/-- What an instruction does that writes registers together and completes: the rest of the state is unchanged. -/
theorem exec_of_setRegs_commit {bs : List Byte} (h : exec i s = (s.setRegs bs).advance.commit) :
    ∃ t, exec i s = .next t ∧ t.status = ⟨.ok, 0, 0⟩ ∧ t.pc = s.pc + 2 ∧ (∀ k, t.reg k = (s.setRegs bs).reg k) ∧
      t.I = s.I ∧ sameMemory s t ∧ sameStack s t ∧ sameDisplay s t ∧ sameTimers s t ∧ sameOutside s t := by
  -- the frame does not look into the new register file
  obtain ⟨V, hV⟩ : ∃ V, s.setRegs bs = { s with V := V } := ⟨_, rfl⟩
  rw [hV] at h ⊢
  exact ⟨_, h, rfl, rfl, fun _ => rfl, rfl, fun _ => rfl, ⟨rfl, fun _ => rfl⟩, fun _ _ => rfl, ⟨rfl, rfl⟩,
    ⟨fun _ => rfl, rfl, rfl⟩, rfl⟩

/-- Fx65 completes when its last byte, at `I + x`, is inside memory. -/
theorem execLdVMem_of_fits (h : s.I.toNat + x.toNat ≤ 4095) :
    exec (.ldVMem x) s = (s.setRegs (s.readBytes (s.dataAddr 0) (x.toNat + 1))).advance.commit :=
  if_pos (State.rangeOk_dataAddr h)

theorem State.loadedRegs_reg (hk : k.toNat ≤ x.toNat) :
    (s.setRegs (s.readBytes (s.dataAddr 0) (x.toNat + 1))).reg k = s.readByte (s.dataAddr k.toNat) := by
  rw [State.setRegs_reg, State.readBytes_getElem? _ _ _ _ (Nat.lt_succ_of_le hk), Option.getD_some]
  rfl

theorem State.loadedRegs_reg_above (hk : x.toNat < k.toNat) :
    (s.setRegs (s.readBytes (s.dataAddr 0) (x.toNat + 1))).reg k = s.reg k := by
  have hlength : (s.readBytes (s.dataAddr 0) (x.toNat + 1)).length ≤ k.toNat := s.readBytes_length _ _ ▸ hk
  rw [State.setRegs_reg, List.getElem?_eq_none hlength, Option.getD_none]

end IndexMemory

/-- Settles O40: a 12-bit address is the same number in 16 bits. -/
theorem loadIndexResult : Obligations.LoadIndexResult :=
  fun nnn _ => ⟨decodeOfEncodeIsTheInstruction (.ldI nnn), exec_of_setI_commit rfl (zextAddr_toNat nnn)⟩

/-- Settles O41: one write of `I` each, the sum modulo 65536 and the product below it. -/
theorem indexArithmeticResult : Obligations.IndexArithmeticResult :=
  fun x _ => ⟨decodeOfEncodeIsTheInstruction (.addIV x), decodeOfEncodeIsTheInstruction (.ldFV x),
    exec_of_setI_commit rfl (indexSum_toNat ..), exec_of_setI_commit rfl (glyphAddr_toNat _)⟩

/-- Settles O42: a store of three bytes, each of which holds its digit because a digit is below 256. -/
theorem decimalStoreResult : Obligations.DecimalStoreResult := by
  intro x s
  refine ⟨decodeOfEncodeIsTheInstruction (.ldBV x), fun hfits => ?_, fun h => exec_raises_of_ownError (if_pos h)⟩
  obtain ⟨t, hexec, hstatus, hpc, hread, hframe⟩ := exec_of_store_commit (execLdBV_of_fits (x := x) hfits) rfl hfits
  have hdigit (k n : Nat) (hk : (decimalDigits (s.reg x))[k]? = some (BitVec.ofNat 8 n)) (hn : n < 256) :
      (t.readByte (s.dataAddr k)).toNat = n := by
    rw [hread k _ hk, BitVec.toNat_ofNat, Nat.mod_eq_of_lt hn]
  exact ⟨t, hexec, hstatus, hpc, hdigit 0 _ rfl (by omega), hdigit 1 _ rfl (by omega), hdigit 2 _ rfl (by omega),
    hframe⟩

/-- Settles O43: a store of `x + 1` bytes, the k-th of which is `V[k]`. -/
theorem storeRegistersResult : Obligations.StoreRegistersResult := by
  intro x s
  refine ⟨decodeOfEncodeIsTheInstruction (.ldMemV x), fun hfits => ?_, fun h => exec_raises_of_ownError (if_pos h)⟩
  obtain ⟨t, hexec, hstatus, hpc, hread, hframe⟩ :=
    exec_of_store_commit (execLdMemV_of_fits hfits) (s.regsUpTo_length x) hfits
  exact ⟨t, hexec, hstatus, hpc, fun k hk => hread _ _ (s.regsUpTo_getElem? x k hk), hframe⟩

/-- Settles O44: the registers up to `x` are the bytes read, and those above are kept. -/
theorem loadRegistersResult : Obligations.LoadRegistersResult := by
  intro x s
  refine ⟨decodeOfEncodeIsTheInstruction (.ldVMem x), fun hfits => ?_, fun h => exec_raises_of_ownError (if_pos h)⟩
  obtain ⟨t, hexec, hstatus, hpc, hregs, hframe⟩ := exec_of_setRegs_commit (execLdVMem_of_fits (x := x) hfits)
  exact ⟨t, hexec, hstatus, hpc, fun k hk => (hregs k).trans (State.loadedRegs_reg hk),
    fun k hk => (hregs k).trans (State.loadedRegs_reg_above hk), hframe⟩

/-- Settles O45: the store leaves `I`, so the load reads the bytes that the store wrote. -/
theorem storeThenLoadRestoresRegisters : Obligations.StoreThenLoadRestoresRegisters := by
  intro x s V hfits
  obtain ⟨t, hstore, -, -, hbytes, -, -, hI, -⟩ := (storeRegistersResult x s).2.1 hfits
  obtain ⟨u, hload, -, -, hregs, -⟩ := (loadRegistersResult x { t with V := V }).2.1 (hI ▸ hfits)
  refine ⟨t, u, hstore, hload, fun k hk => ?_⟩
  calc
    u.reg k = t.readByte (t.dataAddr k.toNat) := hregs k hk
    _ = t.readByte (s.dataAddr k.toNat) := by rw [State.dataAddr, hI, State.dataAddr]
    _ = s.reg k := hbytes k hk

end Sys2Proof.Machine


/-! The display (44_display.md): a sprite as the list of the pixels under its set bits, no two of them the same. -/

namespace Sys2Proof.Machine

open Sys2Proof Sys2Proof.Safety

section Sprites

variable {ox oy r : Nat} {row : Byte} {rows : List Byte} {p : Fin 64 × Fin 32} {ps : List (Fin 64 × Fin 32)}
  {c : Canvas}

/-! XOR onto a list of pixels -/

/-- Pixel `p` of a canvas (R32). -/
def Canvas.pixel (c : Canvas) (p : Fin 64 × Fin 32) : Bool := c.disp[p.2].getLsbD p.1.val

/-- The pixels `ps` toggled in order. -/
def toggleAll (c : Canvas) (ps : List (Fin 64 × Fin 32)) : Canvas := ps.foldl (fun d p => toggle d p.1 p.2) c

theorem toggleAll_cons (c : Canvas) (q : Fin 64 × Fin 32) (ps : List (Fin 64 × Fin 32)) :
    toggleAll c (q :: ps) = toggleAll (toggle c q.1 q.2) ps := rfl

theorem toggle_pixel_eq (c : Canvas) (p q : Fin 64 × Fin 32) :
    (toggle c q.1 q.2).pixel p = (c.pixel p ^^ decide (p = q)) := by
  simp only [Canvas.pixel, toggle_pixel, Prod.ext_iff]

theorem toggle_pixel_ne {q : Fin 64 × Fin 32} (h : p ≠ q) : (toggle c q.1 q.2).pixel p = c.pixel p := by
  rw [toggle_pixel_eq, decide_eq_false h, Bool.xor_false]

/-- Where no pixel comes twice, those listed are inverted and no others. -/
theorem toggleAll_pixel (hps : ps.Nodup) (c : Canvas) (p : Fin 64 × Fin 32) :
    (toggleAll c ps).pixel p = (c.pixel p ^^ decide (p ∈ ps)) := by
  induction ps generalizing c with
  | nil => simp [toggleAll]
  | cons q ps ih =>
    obtain ⟨hq, hnodup⟩ := List.nodup_cons.mp hps
    rw [toggleAll_cons, ih hnodup]
    by_cases hpq : p = q
    · subst hpq
      simp [toggle_pixel_eq, hq]
    · simp [toggle_pixel_ne hpq, hpq]

/-- Where no pixel comes twice, a toggle finds its pixel as it was at first, so the collision is that of R213. -/
theorem toggleAll_collision (hps : ps.Nodup) (c : Canvas) :
    (toggleAll c ps).collision = true ↔ c.collision = true ∨ ∃ p ∈ ps, c.pixel p = true := by
  induction ps generalizing c with
  | nil => simp [toggleAll]
  | cons q ps ih =>
    obtain ⟨hq, hnodup⟩ := List.nodup_cons.mp hps
    have hkept : (∃ p ∈ ps, (toggle c q.1 q.2).pixel p = true) ↔ ∃ p ∈ ps, c.pixel p = true :=
      exists_congr fun p => and_congr_right fun hp => by rw [toggle_pixel_ne (ne_of_mem_of_not_mem hp hq)]
    have hhead : (toggle c q.1 q.2).collision = true ↔ c.collision = true ∨ c.pixel q = true := Bool.or_eq_true_iff
    rw [toggleAll_cons, ih hnodup, hkept, hhead, or_assoc, List.exists_mem_cons_iff]

/-! The pixels of a sprite -/

/-- The pixels under the set bits of the sprite row `row` at row `r`, in the order of R211. -/
def rowPixels (ox oy r : Nat) (row : Byte) : List (Fin 64 × Fin 32) :=
  ((List.range 8).filter fun b => row.getLsbD (7 - b)).map fun b => (wrapX ox b, wrapY oy r)

/-- The pixels under the set bits of the sprite rows `rows`, from row `r` on. -/
def spritePixels (ox oy : Nat) : Nat → List Byte → List (Fin 64 × Fin 32)
  | _, [] => []
  | r, row :: rows => rowPixels ox oy r row ++ spritePixels ox oy (r + 1) rows

theorem drawRow_eq_toggleAll (c : Canvas) : drawRow ox oy r row c = toggleAll c (rowPixels ox oy r row) := by
  rw [toggleAll, rowPixels, List.foldl_map, List.foldl_filter]
  rfl

theorem drawRows_eq_toggleAll (r : Nat) (c : Canvas) :
    drawRows ox oy r rows c = toggleAll c (spritePixels ox oy r rows) := by
  induction rows generalizing r c with
  | nil => rfl
  | cons row rows ih =>
    rw [drawRows, ih, drawRow_eq_toggleAll]
    exact List.foldl_append.symm

theorem mem_rowPixels : p ∈ rowPixels ox oy r row ↔
    ∃ b : Nat, b < 8 ∧ row.getLsbD (7 - b) = true ∧ p.1.val = (ox + b) % 64 ∧ p.2.val = (oy + r) % 32 := by
  simp only [rowPixels, List.mem_map, List.mem_filter, List.mem_range]
  constructor
  · rintro ⟨b, ⟨hb, hbit⟩, rfl⟩
    exact ⟨b, hb, hbit, rfl, rfl⟩
  · rintro ⟨b, hb, hbit, hx, hy⟩
    exact ⟨b, ⟨hb, hbit⟩, Prod.ext (Fin.ext hx.symm) (Fin.ext hy.symm)⟩

theorem mem_spritePixels : p ∈ spritePixels ox oy r rows ↔
    ∃ (k : Nat) (row : Byte), rows[k]? = some row ∧ p ∈ rowPixels ox oy (r + k) row := by
  induction rows generalizing r with
  | nil => simp [spritePixels]
  | cons first rows ih =>
    have hline (k : Nat) : r + 1 + k = r + (k + 1) := Nat.add_right_comm r 1 k
    simp only [spritePixels, List.mem_append, ih, hline]
    constructor
    · rintro (hfirst | ⟨k, row, hrow, hp⟩)
      · exact ⟨0, first, rfl, hfirst⟩
      · exact ⟨k + 1, row, hrow, hp⟩
    · rintro ⟨_ | k, row, hrow, hp⟩
      · obtain rfl := Option.some.inj hrow
        exact .inl hp
      · exact .inr ⟨k, row, hrow, hp⟩

/-- A row is 8 pixels of a line of 64: it does not meet itself where it wraps (R212). -/
theorem rowPixels_nodup : (rowPixels ox oy r row).Nodup := by
  refine (List.nodup_range.filter _).map_on fun b hb b' hb' h => ?_
  have hcolumn : (ox + b) % 64 = (ox + b') % 64 := congrArg (fun q : Fin 64 × Fin 32 => q.1.val) h
  have hb : b < 8 := List.mem_range.mp (List.mem_of_mem_filter hb)
  have hb' : b' < 8 := List.mem_range.mp (List.mem_of_mem_filter hb')
  omega

/-- At most 32 rows are on different lines (R212). -/
theorem spritePixels_nodup (h : rows.length ≤ 32) : (spritePixels ox oy r rows).Nodup := by
  induction rows generalizing r with
  | nil => exact List.nodup_nil
  | cons row rows ih =>
    rw [List.length_cons] at h
    refine rowPixels_nodup.append (ih (by omega)) fun p hfirst hlater => ?_
    obtain ⟨k, row', hrow', hp⟩ := mem_spritePixels.mp hlater
    obtain ⟨-, -, -, -, hline⟩ := mem_rowPixels.mp hfirst
    obtain ⟨-, -, -, -, hline'⟩ := mem_rowPixels.mp hp
    have hk : k < rows.length := (List.getElem?_eq_some_iff.mp hrow').1
    omega

end Sprites

section Display

variable {s t : State} {i : Instr} {x y n : Nibble} {px : Fin 64} {py : Fin 32}

/-! What a draw makes of the display -/

/-- The pixels under the set bits of the sprite of a Dxyn (R211). -/
def State.drawnPixels (s : State) (x y n : Nibble) : List (Fin 64 × Fin 32) :=
  spritePixels ((s.reg x).toNat % 64) ((s.reg y).toNat % 32) 0 (s.sprite n)

theorem State.drawn_eq_toggleAll : s.drawn x y n = toggleAll ⟨s.disp, false⟩ (s.drawnPixels x y n) :=
  drawRows_eq_toggleAll ..

theorem State.sprite_getElem?_eq_some {r : Nat} {row : Byte} :
    (s.sprite n)[r]? = some row ↔ r < n.toNat ∧ s.readByte (s.dataAddr r) = row := by
  simp [List.getElem?_eq_some_iff, State.sprite, State.readBytes, State.dataAddr]

theorem State.mem_drawnPixels : (px, py) ∈ s.drawnPixels x y n ↔ spriteBit s x y n px py := by
  simp only [State.drawnPixels, mem_spritePixels, State.sprite_getElem?_eq_some, mem_rowPixels, spriteBit, Nat.zero_add]
  constructor
  · rintro ⟨r, _, ⟨hr, rfl⟩, b, hb, hbit, hpixel⟩
    exact ⟨r, b, hr, hb, hbit, hpixel⟩
  · rintro ⟨r, b, hr, hb, hbit, hpixel⟩
    exact ⟨r, _, ⟨hr, rfl⟩, b, hb, hbit, hpixel⟩

theorem State.drawnPixels_nodup : (s.drawnPixels x y n).Nodup := by
  refine spritePixels_nodup ?_
  rw [State.sprite, State.readBytes_length]
  omega

theorem State.drawn_pixel_of_spriteBit (h : spriteBit s x y n px py) :
    (s.drawn x y n).pixel (px, py) = !s.pixel px py := by
  rw [State.drawn_eq_toggleAll, toggleAll_pixel State.drawnPixels_nodup,
    decide_eq_true (State.mem_drawnPixels.mpr h), Bool.xor_true]
  rfl

theorem State.drawn_pixel_of_not_spriteBit (h : ¬spriteBit s x y n px py) :
    (s.drawn x y n).pixel (px, py) = s.pixel px py := by
  rw [State.drawn_eq_toggleAll, toggleAll_pixel State.drawnPixels_nodup,
    decide_eq_false (mt State.mem_drawnPixels.mp h), Bool.xor_false]
  rfl

theorem State.drawn_collision : (s.drawn x y n).collision = true ↔
    ∃ (px : Fin 64) (py : Fin 32), spriteBit s x y n px py ∧ s.pixel px py = true := by
  rw [State.drawn_eq_toggleAll, toggleAll_collision State.drawnPixels_nodup]
  simp only [Bool.false_eq_true, false_or, Prod.exists, State.mem_drawnPixels]
  rfl

/-! How the two display instructions complete -/

/-- The frame of an instruction that writes the display, registers, `pc` and STATUS alone. -/
theorem frame_of_display_update (h : t = { s with V := t.V, disp := t.disp, pc := t.pc, status := t.status }) :
    t.I = s.I ∧ sameMemory s t ∧ sameStack s t ∧ sameTimers s t ∧ sameOutside s t := by
  rw [h]
  exact ⟨rfl, fun _ => rfl, ⟨rfl, fun _ => rfl⟩, ⟨rfl, rfl⟩, ⟨fun _ => rfl, rfl, rfl⟩, rfl⟩

/-- What an instruction does that writes the canvas `c`, its collision into VF last, and completes. -/
theorem exec_of_canvas_commit {c : Canvas}
    (h : exec i s = ((s.setDisp c.disp).setFlag (flagByte c.collision)).advance.commit) :
    ∃ t, exec i s = .next t ∧ t.status = ⟨.ok, 0, 0⟩ ∧ t.pc = s.pc + 2 ∧
      (∀ (px : Fin 64) (py : Fin 32), t.pixel px py = c.pixel (px, py)) ∧ t.reg 0xF#4 = flagByte c.collision ∧
      sameRegsBut [0xF#4] s t ∧ t.I = s.I ∧ sameMemory s t ∧ sameStack s t ∧ sameTimers s t ∧ sameOutside s t :=
  ⟨_, h, rfl, rfl, fun _ _ => rfl, State.setReg_reg_same (s := s.setDisp c.disp),
    State.setReg_sameRegsBut (s := s.setDisp c.disp), frame_of_display_update rfl⟩

/-- Dxyn completes when it has no row, or its last byte is inside memory (R211, D9). -/
theorem execDrw_of_fits (h : n = 0 ∨ s.I.toNat + n.toNat ≤ 4096) : exec (.drw x y n) s =
    ((s.setDisp (s.drawn x y n).disp).setFlag (flagByte (s.drawn x y n).collision)).advance.commit := by
  refine if_pos ?_
  rwa [Bool.or_eq_true, decide_eq_true_iff, rangeOk_iff]

/-- The set sprite bits depend on the two origin registers, `I` and memory alone. -/
theorem spriteBit_congr (hx : t.reg x = s.reg x) (hy : t.reg y = s.reg y) (hI : t.I = s.I) (hmem : sameMemory s t) :
    spriteBit t x y n px py ↔ spriteBit s x y n px py := by
  simp only [spriteBit, State.dataAddr, hx, hy, hI, hmem _]

end Display

/-- Settles O47: every row of the new display is 0. -/
theorem clearScreenResult : Obligations.ClearScreenResult := by
  refine ⟨decodeOfEncodeIsTheInstruction .cls, fun s => ?_⟩
  have hoff (px : Fin 64) (py : Fin 32) : (s.setDisp (Vector.replicate 32 0)).pixel px py = false := by
    simp [State.pixel]
  exact ⟨_, rfl, rfl, rfl, hoff, fun _ _ => rfl, frame_of_display_update rfl⟩

/-- Settles O48: the sprite toggles each of its pixels once. -/
theorem drawResult : Obligations.DrawResult := by
  intro x y n s
  refine ⟨decodeOfEncodeIsTheInstruction (.drw x y n), fun hfits => ?_⟩
  obtain ⟨t, hexec, hstatus, hpc, hpixel, hflag, hframe⟩ := exec_of_canvas_commit (execDrw_of_fits hfits)
  refine ⟨t, hexec, hstatus, hpc, fun px py => ⟨fun h => ?_, fun h => ?_⟩,
    fun hcollision => ?_, fun hclear => ?_, hframe⟩
  · rw [hpixel, State.drawn_pixel_of_spriteBit h]
  · rw [hpixel, State.drawn_pixel_of_not_spriteBit h]
  · rw [hflag, State.drawn_collision.mpr hcollision]
    rfl
  · have hnone : (s.drawn x y n).collision = false := by
      rw [← Bool.not_eq_true, State.drawn_collision]
      rintro ⟨px, py, hbit, hon⟩
      exact Bool.false_ne_true ((hclear px py hbit).symm.trans hon)
    rw [hflag, hnone]
    rfl

/-- Settles O49: the check of a sprite with rows is the error's condition, and one without rows is a completed draw. -/
theorem drawOutsideMemoryRaises : Obligations.DrawOutsideMemoryRaises := by
  intro x y n s
  refine ⟨fun hrows hpast => exec_raises_of_ownError (if_pos ⟨hrows, by omega⟩), ?_⟩
  obtain ⟨t, hexec, hstatus, -⟩ := (drawResult x y 0x0#4 s).2 (.inl rfl)
  exact ⟨t, hexec, hstatus⟩

/-- Settles O50: the first draw leaves what the set bits depend on, so the second inverts the same pixels back. -/
theorem drawTwiceRestoresTheDisplay : Obligations.DrawTwiceRestoresTheDisplay := by
  intro x y n s hx hy hfits
  obtain ⟨t, hdraw, -, -, hpixel, -, -, hregs, hI, hmem, -⟩ := (drawResult x y n s).2 (.inr hfits)
  obtain ⟨u, hredraw, -, -, hpixel', hone, hzero, -⟩ := (drawResult x y n t).2 (.inr (hI ▸ hfits))
  have hbit (px : Fin 64) (py : Fin 32) : spriteBit t x y n px py ↔ spriteBit s x y n px py :=
    spriteBit_congr (hregs x (by simpa using hx)) (hregs y (by simpa using hy)) hI hmem
  refine ⟨t, u, hdraw, hredraw, fun px py => ?_, fun ⟨px, py, hp, hoff⟩ => hone ⟨px, py, (hbit px py).mpr hp, ?_⟩,
    fun hon => hzero fun px py hp => ?_⟩
  · by_cases hp : spriteBit s x y n px py
    · rw [(hpixel' px py).1 ((hbit px py).mpr hp), (hpixel px py).1 hp, Bool.not_not]
    · rw [(hpixel' px py).2 (mt (hbit px py).mp hp), (hpixel px py).2 hp]
  · rw [(hpixel px py).1 hp, hoff, Bool.not_false]
  · have hp : spriteBit s x y n px py := (hbit px py).mp hp
    rw [(hpixel px py).1 hp, hon px py hp, Bool.not_true]

end Sys2Proof.Machine


/-! Keys and timers (45_timers_keys.md): the skips on a key, the wait for one, and the timer transfers. -/

namespace Sys2Proof.Machine

open Sys2Proof Sys2Proof.Safety

section KeysTimers

variable {s t : State} {k : Fin 16}

/-- The scan in index order stops at the lowest pressed key (R234). -/
theorem State.firstKey_eq_some_of_lowest (hk : s.keys[k] = true) (hlow : ∀ j : Fin 16, j < k → s.keys[j] = false) :
    s.firstKey = some k := by
  cases hfirst : s.firstKey with
  | none => exact absurd ((s.firstKey_none hfirst k).symm.trans hk) Bool.false_ne_true
  | some j =>
    obtain ⟨hj, hbelow⟩ := s.firstKey_some j hfirst
    have hjk : ¬j < k := fun h => Bool.false_ne_true ((hlow j h).symm.trans hj)
    have hkj : ¬k < j := fun h => Bool.false_ne_true ((hbelow k h).symm.trans hk)
    rw [le_antisymm (not_lt.mp hkj) (not_lt.mp hjk)]

/-- The number of a key fits in a byte. -/
theorem keyByte_toNat (k : Fin 16) : (BitVec.ofNat 8 k.val).toNat = k.val := by
  rw [BitVec.toNat_ofNat, Nat.mod_eq_of_lt (by omega)]

/-- The frame of an instruction that writes the timers, `pc` and STATUS alone. -/
theorem frame_of_timer_update (h : t = { s with DT := t.DT, ST := t.ST, pc := t.pc, status := t.status }) :
    sameRegsBut [] s t ∧ t.I = s.I ∧ sameMemory s t ∧ sameStack s t ∧ sameDisplay s t ∧ sameOutside s t := by
  rw [h]
  exact ⟨fun _ _ => rfl, rfl, fun _ => rfl, ⟨rfl, fun _ => rfl⟩, fun _ _ => rfl, ⟨fun _ => rfl, rfl, rfl⟩, rfl⟩

end KeysTimers

/-- Settles O53: the scan finds the lowest pressed key, or none, and then the step ends with `pc` where it was. -/
theorem blockForKeyResult : Obligations.BlockForKeyResult := by
  intro x s
  refine ⟨decodeOfEncodeIsTheInstruction (.ldVK x), fun k hk hlow => ?_, fun hnone => ?_⟩
  · obtain ⟨t, hexec, hstatus, hpc, hkey, hframe⟩ :=
      exec_of_setReg_commit (execLdVK_of_pressed (x := x) (State.firstKey_eq_some_of_lowest hk hlow))
    exact ⟨t, hexec, hstatus, hpc, hkey ▸ keyByte_toNat k, hframe⟩
  · exact exec_of_setPc_commit (target := s.pc) (execLdVK_of_released (State.firstKey_eq_none_of_released hnone))

/-- Settles O51: the two are skips on opposite states of the key, and the check of `V[x]` is the error's condition. -/
theorem keySkipResult : Obligations.KeySkipResult := by
  intro x s
  refine ⟨decodeOfEncodeIsTheInstruction (.skp x), decodeOfEncodeIsTheInstruction (.sknp x), fun k hVx => ?_,
    fun h => ⟨exec_raises_of_ownError (if_pos h), exec_raises_of_ownError (if_pos h)⟩⟩
  have hkey : keyIndex (s.reg x) = some k := (keyIndex_eq_some _ k).mpr hVx
  exact ⟨exec_of_skipIf_commit (execSkp_of_key hkey) Iff.rfl,
    exec_of_skipIf_commit (execSknp_of_key hkey) (Bool.not_eq_true' _).to_iff⟩

/-- Settles O52: a transfer is one write, of a register or of a timer. -/
theorem timerTransferResult : Obligations.TimerTransferResult :=
  fun x _ => ⟨decodeOfEncodeIsTheInstruction (.ldVDT x), decodeOfEncodeIsTheInstruction (.ldDTV x),
    decodeOfEncodeIsTheInstruction (.ldSTV x), exec_of_setReg_commit rfl,
    ⟨_, rfl, rfl, rfl, rfl, rfl, frame_of_timer_update rfl⟩,
    ⟨_, rfl, rfl, rfl, rfl, rfl, frame_of_timer_update rfl⟩⟩

end Sys2Proof.Machine

/-! Outcomes of a transaction (60_exceptions.md): the machine goes on after an error, STATUS holds a row of the table
of error codes, and what STEP_TIMERS and SET_KEY do. -/

namespace Sys2Proof.Machine

open Sys2Proof Sys2Proof.Safety

/-! Every transaction answers a next state (R253, R254) -/

theorem exists_next_of_stepInstr (s : State) : ∃ t, stepInstr s = .next t := by
  obtain ⟨u, hcommit⟩ | ⟨code, -, hraise⟩ := stepInstr_commit_or_raise s
  · exact ⟨_, hcommit⟩
  · exact ⟨_, hraise⟩

theorem exists_next_of_transact (x : Txn) (s : State) : ∃ t, transact x s = .next t := by
  cases x with
  | stepInstr => exact exists_next_of_stepInstr s
  | idle | reset | stepTimers | load | setKey | readDisplay | readState => exact ⟨_, rfl⟩

/-- Settles O14, by the transaction the step performs. -/
theorem everyStepAnswersNext : Obligations.EveryStepAnswersNext := by
  intro s
  cases hreq : s.requests with
  | nil => exact step_of_no_request hreq ▸ exists_next_of_stepInstr s
  | cons x rest => exact requestsAreServedInOrder s x rest hreq ▸ exists_next_of_transact x _

/-! What SET_KEY answers on each side of its check (R262, R263) -/

theorem hostSetKey_of_lt (k : Fin 16) (pressed : Bool) (s : State) :
    hostSetKey k.val pressed s = (s.setKey k pressed).setStatus Status.success :=
  dif_pos k.isLt

theorem hostSetKey_of_ge {index : Nat} (h : 16 ≤ index) (pressed : Bool) (s : State) :
    hostSetKey index pressed s = s.setStatus ⟨.keyIndexOutOfRange, 0, 0⟩ :=
  dif_neg (by omega)

/-! STATUS holds a row of R250's table -/

section StatusRow

variable {s t u : State} {o : Host.Outcome State Fault Refusal} {i : Instr} {code own : Code} {pc w : Word}

theorem statusRow_success : statusRow Status.success := ⟨rfl, rfl⟩

theorem statusRow_of_commit (he : o = u.commit) (h : o = .next t) : statusRow t.status := by
  obtain rfl := Host.Outcome.next.inj (he.symm.trans h)
  exact statusRow_success

theorem statusRow_of_raise (he : o = s.raise code w) (h : o = .next t) (hrow : statusRow ⟨code, s.pc, w⟩) :
    statusRow t.status := by
  obtain rfl := Host.Outcome.next.inj (he.symm.trans h)
  exact hrow

/-- A check names one error alone, so only its row has to hold. -/
theorem statusRow_of_check {bad : Prop} [Decidable bad] (h : (if bad then some own else none) = some code)
    (hrow : statusRow ⟨own, pc, w⟩) : statusRow ⟨code, pc, w⟩ := by
  obtain ⟨-, hcode⟩ := Option.ite_none_right_eq_some.mp h
  obtain rfl := Option.some.inj hcode
  exact hrow

/-- The error an instruction's own check names has the words of that instruction in its row. -/
theorem statusRow_of_ownError (hpc : pc.toNat ≤ 4094) (h : ownError i s = some code) :
    statusRow ⟨code, pc, encode i⟩ := by
  cases i with
  | ret => exact statusRow_of_check h ⟨hpc, rfl⟩
  | call nnn => exact statusRow_of_check h ⟨hpc, d1_addr ..⟩
  | skp | sknp => exact statusRow_of_check h (.inl ⟨hpc, by simp [readsKey, encode]⟩)
  | drw x y n => exact statusRow_of_check h (.inr ⟨hpc, .inl (d1_nibbles ..)⟩)
  | ldBV | ldMemV | ldVMem => exact statusRow_of_check h (.inr ⟨hpc, .inr (by simp [encode])⟩)
  | _ => cases h -- the other instructions check nothing

theorem exec_statusRow (hpc : s.pc.toNat ≤ 4094) (h : exec i s = .next t) : statusRow t.status := by
  obtain ⟨hraise, hcommit⟩ := EndsAsChecked.of_exec i s
  cases hown : ownError i s with
  | none =>
    obtain ⟨u, hu⟩ := hcommit hown
    exact statusRow_of_commit hu h
  | some code => exact statusRow_of_raise (hraise code hown) h (statusRow_of_ownError hpc hown)

theorem le_pc_of_fetch_none (h : s.fetch = none) : 4095 ≤ s.pc.toNat := by
  by_contra hpc
  rw [State.fetch_of_le (by omega)] at h
  cases h

theorem legalWord_eq_false_of_decode_none (h : decodeWord w = none) : legalWord w = false := by
  simpa [legalWord] using (decoderFollowsOpcodeMap w).2.mp h

/-- STEP_INSTR reports a row of the table whatever STATUS held: its checks come in the order fetch, decode, own. -/
theorem stepInstr_statusRow (h : stepInstr s = .next t) : statusRow t.status := by
  obtain ⟨hfetch, he⟩ | ⟨w, hfetch, hdecode, he⟩ | ⟨w, i, hfetch, -, he⟩ := stepInstr_cases s
  · exact statusRow_of_raise he h (.inl ⟨le_pc_of_fetch_none hfetch, rfl⟩)
  · exact statusRow_of_raise he h ⟨pc_le_of_fetch hfetch, legalWord_eq_false_of_decode_none hdecode⟩
  · exact exec_statusRow (pc_le_of_fetch hfetch) (he ▸ h)

theorem hostLoad_statusRow (bytes : List Byte) (s : State) : statusRow (hostLoad bytes s).status := by
  unfold hostLoad
  split
  · exact statusRow_success
  · exact ⟨rfl, rfl⟩

theorem hostSetKey_statusRow (index : Nat) (pressed : Bool) (s : State) :
    statusRow (hostSetKey index pressed s).status := by
  by_cases hindex : index < 16
  · rw [hostSetKey_of_lt ⟨index, hindex⟩]
    exact statusRow_success
  · rw [hostSetKey_of_ge (not_lt.mp hindex)]
    exact .inr ⟨rfl, rfl⟩

/-- NONE and the reads leave STATUS as it was; every other transaction writes a row of its own. -/
theorem transact_statusRow (hs : statusRow s.status) {x : Txn} (h : transact x s = .next t) : statusRow t.status := by
  cases x with
  | stepInstr => exact stepInstr_statusRow h
  | idle | readDisplay | readState =>
    obtain rfl := Host.Outcome.next.inj h
    exact hs
  | reset | stepTimers =>
    obtain rfl := Host.Outcome.next.inj h
    exact statusRow_success
  | load bytes =>
    obtain rfl := Host.Outcome.next.inj h
    exact hostLoad_statusRow bytes s
  | setKey index pressed =>
    obtain rfl := Host.Outcome.next.inj h
    exact hostSetKey_statusRow index pressed s

end StatusRow

/-- Settles O21, by the transaction the step performs. -/
theorem stepKeepsStatusRow : Obligations.StepKeepsStatusRow := by
  intro s t hs h
  cases hreq : s.requests with
  | nil => exact stepInstr_statusRow (step_of_no_request hreq ▸ h)
  | cons x rest =>
    rw [requestsAreServedInOrder s x rest hreq] at h
    exact transact_statusRow (s := { s with requests := rest }) hs h

/-! STEP_TIMERS and SET_KEY -/

/-- Counting down is subtraction of natural numbers, which ends at 0 (R257). -/
theorem countDown_toNat (v : Byte) : (countDown v).toNat = v.toNat - 1 := by
  unfold countDown
  split_ifs with h
  · rw [h]
    rfl
  · bv_omega

/-- Settles O54, by the two timers' counts. -/
theorem timerStepResult : Obligations.TimerStepResult :=
  fun s => ⟨_, rfl, rfl, countDown_toNat s.DT, countDown_toNat s.ST, rfl, frame_of_timer_update rfl⟩

/-- Settles O56: below 16 the index names one entry of the latch, from 16 on none. -/
theorem setKeyResult : Obligations.SetKeyResult := by
  intro pressed s
  refine ⟨fun k => ?_, fun index h => congrArg Host.Outcome.next (hostSetKey_of_ge h pressed s)⟩
  have hkey : (s.setKey k pressed).keys[k] = pressed := Vector.getElem_set_self ..
  have hothers (j : Fin 16) (hj : j ≠ k) : (s.setKey k pressed).keys[j] = s.keys[j] :=
    Vector.getElem_set_ne k.isLt j.isLt fun h => hj (Fin.ext h.symm)
  exact ⟨_, congrArg Host.Outcome.next (hostSetKey_of_lt k pressed s), rfl, rfl, hkey, hothers, fun _ _ => rfl, rfl,
    fun _ => rfl, ⟨rfl, fun _ => rfl⟩, fun _ _ => rfl, ⟨rfl, rfl⟩, rfl, rfl, rfl⟩

end Sys2Proof.Machine

/-! RESET from any state (70_reset_and_hazards.md R280, R283) -/

namespace Sys2Proof.Machine

open Sys2Proof Sys2Proof.Safety

@[simp] theorem transact_reset (s : State) : transact .reset s = .next (hostReset s) := rfl

/-- R44 names neither the free value's counter nor the host's requests, the two fields in which RESET differs from
the reset state of the build. -/
theorem hostReset_atResetValues (s : State) : atResetValues s.config (hostReset s) := resetValues s.config

/-- RESET reads of its state only what it keeps: the parameters, the counter and the requests. -/
theorem hostReset_congr {s t : State} (hconfig : t.config = s.config) (hdraws : t.draws = s.draws)
    (hrequests : t.requests = s.requests) : hostReset t = hostReset s := by
  simp only [hostReset, hconfig, hdraws, hrequests]

@[simp] theorem hostReset_hostReset (s : State) : hostReset (hostReset s) = hostReset s :=
  hostReset_congr rfl rfl rfl

/-- Settles O57: the state RESET leaves holds R44's values, and RESET finds in it all that it keeps. -/
theorem resetResult : Obligations.ResetResult :=
  fun s => ⟨hostReset s, transact_reset s, hostReset_atResetValues s, hostReset_config s, rfl, rfl, by simp⟩

end Sys2Proof.Machine
